-- ==== Sys2Proof/Word.lean ====
section
/-! DEFINITION. The widths of the block's words (00_scope.md R8, 10_state.md R21). -/

namespace Sys2Proof

/-- An input octet or an ENC_OUT beat (R8: 8 bits). -/
abbrev Byte := BitVec 8

/-- A 16-bit value of a U16 session (R8: 16 bits). -/
abbrev Value16 := BitVec 16

/-- A filtered value as the decoder holds it (R21: 6 bits). -/
abbrev Value6 := BitVec 6

/-- A base-41 digit, the position of a symbol in the alphabet (R15: 0..40). -/
abbrev Digit := Fin 41

/-- A command word (R8, R57: 32 bits). -/
abbrev CmdWord := BitVec 32

/-- A response word (R8, R64: 64 bits). -/
abbrev RespWord := BitVec 64

/-- A DEC_OUT beat (R8, R71: 17 bits, WIDE in bit 16). -/
abbrev DecBeat := BitVec 17

end Sys2Proof
end

