-- ==== Sys2Proof/Config.lean ====
section
/-! DEFINITION. The two implementation parameters of the block (00_scope.md R7). They are configuration, not state:
no command changes them (10_state.md R40). The machine carries them in the constant field `cfg` of State, so that a
statement over every state is a statement over every value of the parameters (log 1). -/

namespace Sys2Proof

/-- `P_REV_FILTER`: how the reverse lookup is realised (R7, 40_alphabet_lut.md R82). -/
inductive RevFilter where
  /-- The classification by the residue modulo 48 (R82, the spec's default). -/
  | modular
  /-- The 41-entry table (R82). -/
  | strict
deriving DecidableEq, Repr

/-- `P_OUT_DEPTH`: how many beats each output channel holds (R7, 20_memory.md R50). -/
inductive OutDepth where
  /-- No limit (the spec's default). -/
  | unbounded
  /-- At most this many beats. R7 asks for a positive number; `Config.wellFormed` checks it. -/
  | finite (beats : Nat)
deriving DecidableEq, Repr

/-- The parameters of one block (R7). -/
structure Config where
  /-- `P_REV_FILTER` -/
  revFilter : RevFilter
  /-- `P_OUT_DEPTH` -/
  outDepth : OutDepth
deriving DecidableEq, Repr

/-- The spec's defaults: `P_REV_FILTER = MODULAR`, `P_OUT_DEPTH = UNBOUNDED` (R7). -/
def Config.default : Config := { revFilter := .modular, outDepth := .unbounded }

end Sys2Proof
end

