-- ==== Sys2Proof/Syntax.lean ====
section
/-! DEFINITION. The 14 commands of the block, one constructor per row of spec/opcode_table.json (30_encoding.md R58).
An operand has the width of its field (R62), so that every term is a command the encoding can express. -/

namespace Sys2Proof

/-- A command (R58). -/
inductive Instr where
  /-- `ENC_START_BYTES`: open a byte-stream encoding (41_encoder.md R91). -/
  | encStartBytes
  /-- `ENC_START_U16`: open a 16-bit-value encoding (R92). -/
  | encStartU16
  /-- `ENC_BYTE b`: one input octet of a byte-stream encoding (R93). -/
  | encByte (b : Byte)
  /-- `ENC_U16 u`: one value of a 16-bit-value encoding (R94). -/
  | encU16 (u : Value16)
  /-- `ENC_END`: close the encoder session, with the remainder (R95). -/
  | encEnd
  /-- `ENC_ABORT`: drop the encoder session (R96). -/
  | encAbort
  /-- `LUT_FWD v`: forward lookup (40_alphabet_lut.md R85). -/
  | lutFwd (v : Byte)
  /-- `LUT_REV b`: reverse lookup (R86). -/
  | lutRev (b : Byte)
  /-- `DEC_START_BYTES`: open a byte-stream decode (42_decoder.md R105). -/
  | decStartBytes
  /-- `DEC_START_U16`: open a strict 16-bit decode (R106). -/
  | decStartU16
  /-- `DEC_SYM b`: one raw input byte of a decode (R107). -/
  | decSym (b : Byte)
  /-- `DEC_END`: close the decoder session (R108, R109). -/
  | decEnd
  /-- `DEC_ABORT`: drop the decoder session and its error record (R110). -/
  | decAbort
  /-- `STAT`: read the session state (43_control_and_functions.md R118). -/
  | stat
deriving DecidableEq, Repr

/-- The unit a command belongs to (R58). -/
inductive CmdUnit where
  | enc
  | dec
  | lut
  /-- STAT, which reads both units (R58: "all"). -/
  | all
deriving DecidableEq, Repr

end Sys2Proof
end

