-- ==== Sys2Proof/Machine/Operands.lean ====
section
/-! DEFINITION. The fields of a command word (30_encoding.md R57), the assembly of its operand (R62), and the unit and the
mnemonic of each command (R58). -/

namespace Sys2Proof

/-- `OP`, bits 31:28 (R57). -/
def opField (w : CmdWord) : BitVec 4 := w.extractLsb' 28 4

/-- `RSV`, bits 27:16, which must be 0 (R57, R61). -/
def rsvField (w : CmdWord) : BitVec 12 := w.extractLsb' 16 12

/-- `OPD`, bits 15:0 (R57). It is the value of ENC_U16 as it stands (R62). -/
def opdField (w : CmdWord) : Value16 := w.extractLsb' 0 16

/-- `OPD[7:0]`: the byte operand of ENC_BYTE, DEC_SYM and LUT_REV and the index of LUT_FWD (R62). -/
def opdByte (w : CmdWord) : Byte := w.extractLsb' 0 8

/-- `OPD[15:8]`, which a byte-operand opcode leaves unused (R59). -/
def opdHigh (w : CmdWord) : Byte := w.extractLsb' 8 8

/-- A command word from its three fields (R57). -/
def cmdWord (op : BitVec 4) (opd : Value16) : CmdWord := op ++ (0 : BitVec 12) ++ opd

/-- A byte operand in the `OPD` field, its unused bits 0 (R59, R62). -/
def byteOpd (b : Byte) : Value16 := (0 : BitVec 8) ++ b

/-- The mnemonics of R58, letter for letter. -/
def Instr.mnemonic : Instr → String
  | .encStartBytes => "ENC_START_BYTES"
  | .encStartU16 => "ENC_START_U16"
  | .encByte _ => "ENC_BYTE"
  | .encU16 _ => "ENC_U16"
  | .encEnd => "ENC_END"
  | .encAbort => "ENC_ABORT"
  | .lutFwd _ => "LUT_FWD"
  | .lutRev _ => "LUT_REV"
  | .decStartBytes => "DEC_START_BYTES"
  | .decStartU16 => "DEC_START_U16"
  | .decSym _ => "DEC_SYM"
  | .decEnd => "DEC_END"
  | .decAbort => "DEC_ABORT"
  | .stat => "STAT"

/-- The unit column of R58. -/
def Instr.unit : Instr → CmdUnit
  | .encStartBytes => .enc
  | .encStartU16 => .enc
  | .encByte _ => .enc
  | .encU16 _ => .enc
  | .encEnd => .enc
  | .encAbort => .enc
  | .lutFwd _ => .lut
  | .lutRev _ => .lut
  | .decStartBytes => .dec
  | .decStartU16 => .dec
  | .decSym _ => .dec
  | .decEnd => .dec
  | .decAbort => .dec
  | .stat => .all

end Sys2Proof
end

