-- ==== Sys2Proof/WellFormed.lean ====
section
/-! DEFINITION. What makes a command word legal (30_encoding.md R59 to R61) and the parameters legal (00_scope.md R7).
A term of Instr needs no check of its own: each operand's type is exactly its field (R62), and R75 lets LUT_FWD carry
every index 0..255 (the indices above 40 are refused by the command's own status, R85). -/

namespace Sys2Proof

/-- `OP` names a command: it is neither 0x0 nor 0xF (R58, R60). -/
def opLegal (w : CmdWord) : Bool := opField w != 0 && opField w != 15

/-- The reserved bits 27:16 are 0 (R59, R61). -/
def rsvLegal (w : CmdWord) : Bool := rsvField w == 0

/-- The operand bits the opcode does not use are 0 (R59: the three operand shapes). -/
def opdLegal (w : CmdWord) : Bool :=
  if opField w = 4 then true
  else if opField w = 3 ∨ opField w = 7 ∨ opField w = 8 ∨ opField w = 11 then opdHigh w == 0
  else opdField w == 0

/-- A legal command word (R59). -/
def wordLegal (w : CmdWord) : Bool := opLegal w && rsvLegal w && opdLegal w

/-- `P_OUT_DEPTH` is a positive natural or UNBOUNDED (R7). -/
def Config.wellFormed (c : Config) : Bool :=
  match c.outDepth with
  | .unbounded => true
  | .finite n => 0 < n

end Sys2Proof
end

