-- ==== Sys2Proof/Decode.lean ====
section
/-! DEFINITION. Decoding of a command word, total on every 32-bit word and rejecting by name (30_encoding.md R57 to R63),
the encoder, and the match and mask rows of R59. No mode or state changes how a word decodes (R73). -/

namespace Sys2Proof

/-- Why a word is illegal (R60). Each of them ends in the same response, ILLEGAL_COMMAND. -/
inductive DecodeError where
  /-- `OP` is 0x0 or 0xF (R58, R60). -/
  | reservedOpcode
  /-- A bit of `RSV` is set (R61). -/
  | reservedBits
  /-- An operand bit that the opcode does not use is set (R59). -/
  | unusedOperandBits
deriving DecidableEq, Repr

/-- A command without an operand needs `OPD = 0` (R59). -/
def decodeNone (w : CmdWord) (i : Instr) : Except DecodeError Instr :=
  if opdField w = 0 then .ok i else .error .unusedOperandBits

/-- A byte-operand command needs `OPD[15:8] = 0` (R59). -/
def decodeByte (w : CmdWord) (mk : Byte → Instr) : Except DecodeError Instr :=
  if opdHigh w = 0 then .ok (mk (opdByte w)) else .error .unusedOperandBits

/-- The opcode map of R58, for a word whose reserved bits are 0. -/
def decodeOp (w : CmdWord) : Except DecodeError Instr :=
  match (opField w).toNat with
  | 0x1 => decodeNone w .encStartBytes
  | 0x2 => decodeNone w .encStartU16
  | 0x3 => decodeByte w .encByte
  | 0x4 => .ok (.encU16 (opdField w))
  | 0x5 => decodeNone w .encEnd
  | 0x6 => decodeNone w .encAbort
  | 0x7 => decodeByte w .lutFwd
  | 0x8 => decodeByte w .lutRev
  | 0x9 => decodeNone w .decStartBytes
  | 0xA => decodeNone w .decStartU16
  | 0xB => decodeByte w .decSym
  | 0xC => decodeNone w .decEnd
  | 0xD => decodeNone w .decAbort
  | 0xE => decodeNone w .stat
  | _ => .error .reservedOpcode

/-- The command a word stands for, or why it stands for none (R63). -/
def decode (w : CmdWord) : Except DecodeError Instr :=
  if rsvField w = 0 then decodeOp w
  else if opLegal w then .error .reservedBits
  else .error .reservedOpcode

/-- The word of a command (R57 to R59). -/
def encode : Instr → CmdWord
  | .encStartBytes => cmdWord 0x1 0
  | .encStartU16 => cmdWord 0x2 0
  | .encByte b => cmdWord 0x3 (byteOpd b)
  | .encU16 u => cmdWord 0x4 u
  | .encEnd => cmdWord 0x5 0
  | .encAbort => cmdWord 0x6 0
  | .lutFwd v => cmdWord 0x7 (byteOpd v)
  | .lutRev b => cmdWord 0x8 (byteOpd b)
  | .decStartBytes => cmdWord 0x9 0
  | .decStartU16 => cmdWord 0xA 0
  | .decSym b => cmdWord 0xB (byteOpd b)
  | .decEnd => cmdWord 0xC 0
  | .decAbort => cmdWord 0xD 0
  | .stat => cmdWord 0xE 0

/-- A row of R59: the bits it fixes, their values, and the command it reads from a word (R63). -/
structure OpcodeRow where
  matchBits : CmdWord
  maskBits : CmdWord
  command : CmdWord → Instr

/-- The 14 rows of R59, in its order. -/
def opcodeRows : List OpcodeRow :=
  [ ⟨0x10000000, 0xFFFFFFFF, fun _ => .encStartBytes⟩,
    ⟨0x20000000, 0xFFFFFFFF, fun _ => .encStartU16⟩,
    ⟨0x30000000, 0xFFFFFF00, fun w => .encByte (opdByte w)⟩,
    ⟨0x40000000, 0xFFFF0000, fun w => .encU16 (opdField w)⟩,
    ⟨0x50000000, 0xFFFFFFFF, fun _ => .encEnd⟩,
    ⟨0x60000000, 0xFFFFFFFF, fun _ => .encAbort⟩,
    ⟨0x70000000, 0xFFFFFF00, fun w => .lutFwd (opdByte w)⟩,
    ⟨0x80000000, 0xFFFFFF00, fun w => .lutRev (opdByte w)⟩,
    ⟨0x90000000, 0xFFFFFFFF, fun _ => .decStartBytes⟩,
    ⟨0xA0000000, 0xFFFFFFFF, fun _ => .decStartU16⟩,
    ⟨0xB0000000, 0xFFFFFF00, fun w => .decSym (opdByte w)⟩,
    ⟨0xC0000000, 0xFFFFFFFF, fun _ => .decEnd⟩,
    ⟨0xD0000000, 0xFFFFFFFF, fun _ => .decAbort⟩,
    ⟨0xE0000000, 0xFFFFFFFF, fun _ => .stat⟩ ]

/-- "A word matches a row when `(w & mask) = match`" (R59). -/
def OpcodeRow.matchesWord (r : OpcodeRow) (w : CmdWord) : Bool := (w &&& r.maskBits) == r.matchBits

/-- R63 as it is written: the first row that matches, or ILLEGAL (`none`). -/
def decodeByTable (w : CmdWord) : Option Instr :=
  (opcodeRows.find? (fun r => r.matchesWord w)).map (fun r => r.command w)

/-- The command word whose bits the opcode table numbers as `w`, bits at or above `nbits` being 0. A command is one
32-bit word and the block stores it nowhere, so that no byte order applies (R57, 20_memory.md R41). -/
def tableWord (nbits w : Nat) : CmdWord := BitVec.ofNat 32 (w % 2 ^ nbits)

/-- The command the decoder reads from an instruction whose bits are `w`. -/
def decodeTableWord (nbits w : Nat) : Option Instr :=
  match decode (tableWord nbits w) with
  | .ok i => some i
  | .error _ => none

end Sys2Proof
end

