-- ==== Sys2Proof/Machine/State.lean ====
section
/-! DEFINITION. The block's state as plain data: every field of 10_state.md R21, the commands issued and not yet taken
(20_memory.md R50), what the block has returned to the host (R49, R51), what the host does next (70_reset_and_hazards.md
R161) and the parameters (00_scope.md R7). -/

namespace Sys2Proof.Machine

/-- `enc_mode`, the encoder session's kind (R22). Code 3 is never held. -/
inductive EncMode where
  | idle
  | bytes
  | u16
deriving DecidableEq, Repr

/-- `dec_mode`, the decoder session's kind (R25). -/
inductive DecMode where
  | idle
  | bytes
  | u16
  /-- The last session ended with an error (R25). -/
  | error
deriving DecidableEq, Repr

/-- `dec_ek`, the kind of the recorded error (R29, 30_encoding.md R67). -/
inductive ErrKind where
  | none
  | overflow
  | underflow
  | contract
deriving DecidableEq, Repr

/-- What the host does at the block's ports (70_reset_and_hazards.md R161). -/
inductive HostEvent where
  /-- Issue one command word, legal or not. -/
  | issue (w : CmdWord)
  /-- Pop the head of ENC_OUT, if any. -/
  | popEnc
  /-- Pop the head of DEC_OUT, if any. -/
  | popDec
  /-- Assert reset. -/
  | reset
deriving DecidableEq, Repr

/-- How the command that left `issued` last left it: what 70_reset_and_hazards.md R162 asks of the last command of a run. -/
inductive CommandEnd where
  /-- No command has left it. -/
  | none
  /-- The block took the command and responded (20_memory.md R49). -/
  | answered
  /-- Reset discarded the command without a response (R151). -/
  | discarded
deriving DecidableEq, Repr

/-- Why a step stops with a fault: never. The block raises no traps, and every command completes with a status in its
response (60_exceptions.md R132), so that this type has no value. Safe: no behaviour is cut off. -/
inductive Fault : Type
deriving DecidableEq, Repr

/-- Why a step has no meaning for a command. No step of this model answers with it. -/
inductive Refusal where
  /-- Raised by an arm of `exec` whose command has no meaning yet; no arm is left so. Safe: a run stops there. -/
  | notModelled (mnemonic : String)
deriving DecidableEq, Repr

/-- The state of the block. -/
structure State where
  /-- `enc_mode` (R22) -/
  encMode : EncMode
  /-- `enc_hv`: a first byte of a pair is held (R23) -/
  encHv : Bool
  /-- `enc_hb`: the held byte (R24) -/
  encHb : Byte
  /-- `dec_mode` (R25) -/
  decMode : DecMode
  /-- `dec_cnt`: filtered values buffered toward the next triplet; never 3 (R26) -/
  decCnt : Fin 3
  /-- `dec_v0`: the low digit gathered (R27) -/
  decV0 : Value6
  /-- `dec_v1`: the mid digit gathered (R28) -/
  decV1 : Value6
  /-- `dec_ek`: the kind of the recorded error (R29) -/
  decEk : ErrKind
  /-- `dec_ev`: the value of the recorded error (R30) -/
  decEv : BitVec 17
  /-- `dec_el`: the limit of the recorded error (R31) -/
  decEl : BitVec 16
  /-- `enc_out`: the encoder output channel, head first (R32) -/
  encOut : List Byte
  /-- `dec_out`: the decoder output channel, head first (R32) -/
  decOut : List DecBeat
  /-- Commands issued and not yet taken, oldest first; the head is held while it does not fit (20_memory.md R50). -/
  issued : List CmdWord
  /-- How the command that left `issued` last left it (R151, R162). The model's record. -/
  lastEnd : CommandEnd
  /-- The responses returned so far, oldest first (R49). The model's record of what the host has been given. -/
  responses : List RespWord
  /-- What pops of ENC_OUT have returned, oldest first (R51). The model's record. -/
  encPopped : List Byte
  /-- What pops of DEC_OUT have returned, oldest first (R51). The model's record. -/
  decPopped : List DecBeat
  /-- What the host does next, oldest first (70_reset_and_hazards.md R161). The model's input. -/
  inbox : List HostEvent
  /-- The parameters, which nothing changes (R40). -/
  cfg : Config
deriving DecidableEq, Repr

/-- The block right after reset (10_state.md R38, 70_reset_and_hazards.md R152), nothing issued and nothing returned,
with the spec's default parameters (00_scope.md R7). -/
def State.reset : State :=
  { encMode := .idle, encHv := false, encHb := 0,
    decMode := .idle, decCnt := 0, decV0 := 0, decV1 := 0,
    decEk := .none, decEv := 0, decEl := 0,
    encOut := [], decOut := [],
    issued := [], lastEnd := .none, responses := [], encPopped := [], decPopped := [], inbox := [],
    cfg := Config.default }

end Sys2Proof.Machine
end

