-- ==== Sys2Proof/Machine/Flags.lean ====
section
/-! DEFINITION. The status codes, the response word and the packing of STAT (30_encoding.md R64 to R69). The block has no
condition codes: a command's outcome is the STATUS field of its own response (10_state.md R33). -/

namespace Sys2Proof.Machine

/-- STATUS (30_encoding.md R66). Codes 7 to 15 are never returned (R72). -/
inductive Status where
  | ok
  | overflow
  | underflow
  | contract
  | illegalCommand
  | illegalSequence
  | illegalOperand
deriving DecidableEq, Repr

/-- The STATUS codes (R66). -/
def Status.code : Status → BitVec 4
  | .ok => 0
  | .overflow => 1
  | .underflow => 2
  | .contract => 3
  | .illegalCommand => 4
  | .illegalSequence => 5
  | .illegalOperand => 6

/-- The ERR_KIND codes (R67), which are those of `dec_ek` (10_state.md R29). -/
def ErrKind.code : ErrKind → BitVec 2
  | .none => 0
  | .overflow => 1
  | .underflow => 2
  | .contract => 3

/-- The status of a failing command: "`ERR_KIND = STATUS`" (R67). -/
def ErrKind.status : ErrKind → Status
  | .none => .ok
  | .overflow => .overflow
  | .underflow => .underflow
  | .contract => .contract

/-- The `enc_mode` codes (R69). -/
def EncMode.code : EncMode → BitVec 2
  | .idle => 0
  | .bytes => 1
  | .u16 => 2

/-- The `dec_mode` codes (R69). -/
def DecMode.code : DecMode → BitVec 2
  | .idle => 0
  | .bytes => 1
  | .u16 => 2
  | .error => 3

/-- The fields of a response; a field that a command's rule does not set is 0 (R64, R65). -/
structure Response where
  status : Status
  rdata : Byte := 0#8
  rvalid : Bool := false
  errKind : ErrKind := .none
  errLimit : BitVec 16 := 0#16
  errValue : BitVec 17 := 0#17
deriving DecidableEq, Repr

/-- The response word, from bit 63 down: reserved 63:49, ERR_VALUE 48:32, ERR_LIMIT 31:16, reserved 15, ERR_KIND 14:13,
RVALID 12, RDATA 11:4, STATUS 3:0 (R64). -/
def Response.word (r : Response) : RespWord :=
  (0 : BitVec 15) ++ r.errValue ++ r.errLimit ++ (0 : BitVec 1) ++ r.errKind.code ++ BitVec.ofBool r.rvalid
    ++ r.rdata ++ r.status.code

/-- The STATUS field of a response word (R64). -/
def statusField (w : RespWord) : BitVec 4 := w.extractLsb' 0 4

/-- The RDATA field of a response word (R64). -/
def rdataField (w : RespWord) : Byte := w.extractLsb' 4 8

/-- The RVALID field of a response word (R64). -/
def rvalidField (w : RespWord) : BitVec 1 := w.extractLsb' 12 1

/-- The ERR_KIND field of a response word (R64). -/
def errKindField (w : RespWord) : BitVec 2 := w.extractLsb' 13 2

/-- The ERR_LIMIT field of a response word (R64). -/
def errLimitField (w : RespWord) : BitVec 16 := w.extractLsb' 16 16

/-- The ERR_VALUE field of a response word (R64). -/
def errValueField (w : RespWord) : BitVec 17 := w.extractLsb' 32 17

/-- The packing of RDATA in a STAT response (R68). -/
def statRdata (s : State) : Byte :=
  (0 : BitVec 1) ++ BitVec.ofNat 2 s.decCnt.val ++ s.decMode.code ++ BitVec.ofBool s.encHv ++ s.encMode.code

end Sys2Proof.Machine
end

