-- ==== Sys2Proof/Machine/Ops.lean ====
section
/-! DEFINITION. The shared operations: the lookups, the digit transforms, the writes of state, the entry into the ERROR mode
and the return from it, the channels, and the host's interactions. Each names the rule of spec/ it follows. -/

namespace Sys2Proof.Machine

/-- The answer of a command or a step. -/
abbrev Answer := Host.Outcome State Fault Refusal

/-! ### The lookups (40_alphabet_lut.md) -/

/-- The 41 symbols, indexed by value (R79: the table, byte for byte). -/
def alphabet : Vector Byte 41 :=
  #v[0x30, 0x31, 0x32, 0x33, 0x34, 0x35, 0x36, 0x37, 0x38, 0x39,
     0x6A, 0x6B, 0x6C, 0x6D, 0x6E, 0x6F, 0x70,
     0x41, 0x42, 0x43, 0x44, 0x45, 0x46, 0x47, 0x48, 0x49, 0x4A, 0x4B, 0x4C,
     0x4D, 0x4E, 0x4F, 0x50, 0x51, 0x52, 0x53, 0x54, 0x55, 0x56, 0x57, 0x58]

/-- Forward lookup, defined on 0..40 only (R80). -/
def fwd (v : Digit) : Byte := alphabet[v]

/-- The MODULAR classification of a byte (R82). The bounds 32 and 127 have no second statement (91_not_in_source.md N2):
UNVERIFIED, log 11. -/
def revModular (b : Byte) : Option Value6 :=
  if 32 < b.toNat ∧ b.toNat < 127 ∧ b.toNat % 48 < 41 then some (BitVec.ofNat 6 (b.toNat % 48)) else none

/-- The STRICT classification of a byte: the 41-entry table (R82). -/
def revStrict (b : Byte) : Option Value6 :=
  ((List.finRange 41).find? (fun v => fwd v == b)).map (fun v => BitVec.ofNat 6 v.val)

/-- Reverse lookup: the value of an accepted byte, `none` for a rejected one (R82). -/
def rev (f : RevFilter) (b : Byte) : Option Value6 :=
  match f with
  | .modular => revModular b
  | .strict => revStrict b

/-! ### The transforms of the encoder (41_encoder.md) -/

/-- A byte pair is big-endian: `(first << 8) | second` (20_memory.md R42). -/
def bytePair (first second : Byte) : Value16 := first ++ second

/-- The digits (low, mid, high) of a 16-bit value by two nested divmods (R88). -/
def tripleDigits (u : Value16) : Digit × Digit × Digit :=
  (⟨u.toNat % 41, by omega⟩, ⟨u.toNat / 41 % 41, by omega⟩, ⟨u.toNat / 41 / 41, by have := u.isLt; omega⟩)

/-- The three symbols of a 16-bit value, in the order low, mid, high (R88, 20_memory.md R44). -/
def tripleSymbols (u : Value16) : List Byte :=
  let d := tripleDigits u
  [fwd d.1, fwd d.2.1, fwd d.2.2]

/-- The symbols of a trailing byte: the low digit always, the high digit only if it is above 0 (R89). -/
def tailSymbols (b : Byte) : List Byte :=
  let lo : Digit := ⟨b.toNat % 41, by omega⟩
  let hi : Digit := ⟨b.toNat / 41, by have := b.isLt; omega⟩
  if hi.val > 0 then [fwd lo, fwd hi] else [fwd lo]

/-! ### The transforms of the decoder (42_decoder.md) -/

/-- The value of a triplet, exact (R101). -/
def tripletValue (v0 v1 v2 : Value6) : Nat := v0.toNat + 41 * (v1.toNat + 41 * v2.toNat)

/-- The value of a double group, exact (R103). -/
def doubleValue (v0 v1 : Value6) : Nat := v0.toNat + 41 * v1.toNat

/-- A decoded octet as a beat: WIDE = 0, DATA[15:8] = 0 (30_encoding.md R71). -/
def narrowBeat (b : Byte) : DecBeat := (0 : BitVec 9) ++ b

/-- A decoded 16-bit value as a beat: WIDE = 1 (30_encoding.md R71). -/
def wideBeat (u : Value16) : DecBeat := (1 : BitVec 1) ++ u

/-- The beats of a triplet value below 65536 in a BYTES session: `u >> 8`, then `u & 0xFF` (R102, 20_memory.md R43). -/
def byteBeats (u : Nat) : List DecBeat :=
  [narrowBeat (BitVec.ofNat 8 (u >>> 8)), narrowBeat (BitVec.ofNat 8 (u &&& 0xFF))]

/-- The beat of a triplet value below 65536 in a U16 session (R102). -/
def valueBeats (u : Nat) : List DecBeat := [wideBeat (BitVec.ofNat 16 u)]

/-! ### Writes of state -/

/-- Return a response (30_encoding.md R64): responses are in command order, one per command (20_memory.md R49). -/
def State.respond (s : State) (r : Response) : State := { s with responses := s.responses ++ [r.word] }

/-- `emit ENC_OUT`, beats in order (00_scope.md R12). -/
def State.emitEnc (s : State) (beats : List Byte) : State := { s with encOut := s.encOut ++ beats }

/-- `emit DEC_OUT`, beats in order (00_scope.md R12). -/
def State.emitDec (s : State) (beats : List DecBeat) : State := { s with decOut := s.decOut ++ beats }

/-- Open an encoder session, discarding an open one with its held byte (41_encoder.md R91, R92). -/
def State.openEnc (s : State) (m : EncMode) : State := { s with encMode := m, encHv := false, encHb := 0 }

/-- Hold the first byte of a pair (R93). -/
def State.holdByte (s : State) (b : Byte) : State := { s with encHb := b, encHv := true }

/-- The held byte is used up (R93). -/
def State.releaseByte (s : State) : State := { s with encHv := false }

/-- Close the encoder session (R95, R96). -/
def State.closeEnc (s : State) : State := { s with encHv := false, encMode := .idle }

/-- Hold the first filtered value of a triplet (42_decoder.md R107). -/
def State.bufferFirst (s : State) (x : Value6) : State := { s with decV0 := x, decCnt := 1 }

/-- Hold the second filtered value of a triplet (R107). -/
def State.bufferSecond (s : State) (x : Value6) : State := { s with decV1 := x, decCnt := 2 }

/-- The group gathered is used up (R107). -/
def State.clearGroup (s : State) : State := { s with decCnt := 0 }

/-- Close the decoder session (R108, R109). -/
def State.closeDec (s : State) : State := { s with decCnt := 0, decMode := .idle }

/-- TAKING AN ERROR: what OVERFLOW, UNDERFLOW and CONTRACT do to the state (42_decoder.md R111, 60_exceptions.md R142).
The group is dropped, the mode becomes ERROR, and the record holds the kind, the value and the limit. The limit 255 and the
fields of CONTRACT are the spec's own choice (92_eei_decisions.md D7, log 8). -/
def State.enterError (s : State) (kind : ErrKind) (value limit : Nat) : State :=
  { s with decMode := .error, decCnt := 0, decEk := kind, decEv := BitVec.ofNat 17 value,
           decEl := BitVec.ofNat 16 limit }

/-- LEAVING ERROR (60_exceptions.md R143): the record is cleared and the unit goes to mode `m`. -/
def State.leaveError (s : State) (m : DecMode) : State :=
  { s with decMode := m, decCnt := 0, decEk := .none, decEv := 0, decEl := 0 }

/-- Open a decoder session, discarding an open one with its buffered values and any error record (42_decoder.md R105,
R106). -/
def State.openDec (s : State) (m : DecMode) : State := { s.leaveError m with decV0 := 0, decV1 := 0 }

/-! ### How a command completes -/

/-- A command completes with a response. -/
def State.complete (s : State) (r : Response) : Answer := .next (s.respond r)

/-- `respond(STATUS=OK)`, every other field 0 (30_encoding.md R65). -/
def State.ok (s : State) : Answer := s.complete { status := .ok }

/-- `raise IllegalSequence()`: no state change, every field 0 except STATUS (R65, 60_exceptions.md R138). -/
def State.illegalSequence (s : State) : Answer := s.complete { status := .illegalSequence }

/-- `raise IllegalOperand()`: no state change, every field 0 except STATUS (R65, 60_exceptions.md R139). -/
def State.illegalOperand (s : State) : Answer := s.complete { status := .illegalOperand }

/-- `raise IllegalCommand()`: no state change, every field 0 except STATUS (R65, 60_exceptions.md R137). -/
def State.illegalCommand (s : State) : Answer := s.complete { status := .illegalCommand }

/-- `raise Overflow`, `Underflow` or `Contract`: enter ERROR and report the same three facts (30_encoding.md R65, R67,
60_exceptions.md R140). -/
def State.raiseError (s : State) (kind : ErrKind) (value limit : Nat) : Answer :=
  (s.enterError kind value limit).complete
    { status := kind.status, errKind := kind, errLimit := BitVec.ofNat 16 limit, errValue := BitVec.ofNat 17 value }

/-! ### The channels and the host (20_memory.md R50, R51; 70_reset_and_hazards.md R151, R161) -/

/-- A channel of the given depth lacks room for the beats that would bring it from `before` to `after`: the command emits
`after - before` beats and fewer places are free (R50). A command that emits nothing is never held. -/
def lacksRoom (d : OutDepth) (before after : Nat) : Bool :=
  match d with
  | .unbounded => false
  | .finite n => before < after && n < after

/-- Taking a command that leads from `s` to `t` would overfill a channel (R50). -/
def State.overfills (s t : State) : Bool :=
  lacksRoom s.cfg.outDepth s.encOut.length t.encOut.length
    || lacksRoom s.cfg.outDepth s.decOut.length t.decOut.length

/-- The host pops ENC_OUT: the head beat, if any; nothing else changes (R51, R161). -/
def State.popEnc (s : State) : State :=
  match s.encOut with
  | [] => s
  | b :: bs => { s with encOut := bs, encPopped := s.encPopped ++ [b] }

/-- The host pops DEC_OUT (R51, R161). -/
def State.popDec (s : State) : State :=
  match s.decOut with
  | [] => s
  | b :: bs => { s with decOut := bs, decPopped := s.decPopped ++ [b] }

/-- The host issues a command (R161): it waits behind those not yet taken, since commands take effect in the order they are
issued (20_memory.md R49; log 3). -/
def State.issueCommand (s : State) (w : CmdWord) : State := { s with issued := s.issued ++ [w] }

/-- The reset event: every field at its reset value, the channels emptied, a held command discarded without a response, and with
it those behind it (R151, R153; log 3). What the host has been given already, what it does next and the parameters are outside
the block. -/
def State.hostReset (s : State) : State :=
  { State.reset with
    lastEnd := if s.issued.isEmpty then s.lastEnd else .discarded
    responses := s.responses, encPopped := s.encPopped, decPopped := s.decPopped, inbox := s.inbox, cfg := s.cfg }

/-- One interaction of the host (R161). -/
def State.hostAct (s : State) (e : HostEvent) : State :=
  match e with
  | .issue w => s.issueCommand w
  | .popEnc => s.popEnc
  | .popDec => s.popDec
  | .reset => s.hostReset

/-- The host's next interaction; with none to come, nothing happens: the block does nothing between commands
(60_exceptions.md R150), and a command held while the host never pops waits forever (70_reset_and_hazards.md R159). -/
def State.hostStep (s : State) : State :=
  match s.inbox with
  | [] => s
  | e :: es => ({ s with inbox := es }).hostAct e

/-- The head of the commands not yet taken has been taken and has responded (R49, R162). -/
def State.dropIssued (s : State) : State := { s with issued := s.issued.tail, lastEnd := .answered }

/-- Put a command where the block takes its next one: before all others not yet taken. -/
def State.placeCommand (s : State) (w : CmdWord) : State := { s with issued := w :: s.issued }

end Sys2Proof.Machine
end

