-- ==== Sys2Proof/Machine/Control.lean ====
section
/-! DEFINITION. The status command (43_control_and_functions.md R118). -/

namespace Sys2Proof.Machine

/-- `STAT` (R118): reads without side effects (10_state.md R37). -/
def execStat (s : State) : Answer :=
  s.complete { status := .ok, rdata := statRdata s, rvalid := true,
               errKind := s.decEk, errLimit := s.decEl, errValue := s.decEv }

end Sys2Proof.Machine
end

