-- ==== Sys2Proof/Machine/Decoder.lean ====
section
/-! DEFINITION. The commands of the DEC unit (42_decoder.md). -/

namespace Sys2Proof.Machine

/-- `DEC_START_BYTES` (R105). -/
def execDecStartBytes (s : State) : Answer := (s.openDec .bytes).ok

/-- `DEC_START_U16` (R106). -/
def execDecStartU16 (s : State) : Answer := (s.openDec .u16).ok

/-- The third value `x` completes a triplet (R107, the last branch; the check is R102). -/
def completeTriplet (x : Value6) (s : State) : Answer :=
  let u := tripletValue s.decV0 s.decV1 x
  if 65536 ≤ u then s.raiseError .overflow u 65535
  else if s.decMode = .bytes then (s.clearGroup.emitDec (byteBeats u)).ok
  else (s.clearGroup.emitDec (valueBeats u)).ok

/-- An accepted value `x` joins the group gathered so far (R107). -/
def acceptValue (x : Value6) (s : State) : Answer :=
  if s.decCnt = 0 then (s.bufferFirst x).ok
  else if s.decCnt = 1 then (s.bufferSecond x).ok
  else completeTriplet x s

/-- `DEC_SYM b` (R107). A byte that the filter rejects changes nothing (R114). -/
def execDecSym (b : Byte) (s : State) : Answer :=
  if s.decMode ≠ .bytes ∧ s.decMode ≠ .u16 then s.illegalSequence
  else
    match rev s.cfg.revFilter b with
    | none => s.ok
    | some x => acceptValue x s

/-- `DEC_END` in a BYTES session (R108): the remainder of one or two values. -/
def endBytes (s : State) : Answer :=
  if s.decCnt = 1 then ((s.emitDec [narrowBeat (s.decV0.setWidth 8)]).closeDec).ok
  else if s.decCnt = 2 then
    let u8 := doubleValue s.decV0 s.decV1
    if u8 < 41 then s.raiseError .underflow u8 41
    else if 256 ≤ u8 then s.raiseError .overflow u8 255
    else ((s.emitDec [narrowBeat (BitVec.ofNat 8 u8)]).closeDec).ok
  else s.closeDec.ok

/-- `DEC_END` in a U16 session (R109): a leftover is a contract violation. -/
def endU16 (s : State) : Answer :=
  if s.decCnt ≠ 0 then s.raiseError .contract s.decCnt.val 0
  else s.closeDec.ok

/-- `DEC_END` (R108, R109). -/
def execDecEnd (s : State) : Answer :=
  if s.decMode = .bytes then endBytes s
  else if s.decMode = .u16 then endU16 s
  else s.illegalSequence

/-- `DEC_ABORT` (R110). -/
def execDecAbort (s : State) : Answer := (s.leaveError .idle).ok

end Sys2Proof.Machine
end

