-- ==== Sys2Proof/Machine/Encoder.lean ====
section
/-! DEFINITION. The commands of the ENC unit (41_encoder.md). -/

namespace Sys2Proof.Machine

/-- `ENC_START_BYTES` (R91). -/
def execEncStartBytes (s : State) : Answer := (s.openEnc .bytes).ok

/-- `ENC_START_U16` (R92). -/
def execEncStartU16 (s : State) : Answer := (s.openEnc .u16).ok

/-- `ENC_BYTE b` (R93). -/
def execEncByte (b : Byte) (s : State) : Answer :=
  if s.encMode ≠ .bytes then s.illegalSequence
  else if s.encHv then ((s.emitEnc (tripleSymbols (bytePair s.encHb b))).releaseByte).ok
  else (s.holdByte b).ok

/-- `ENC_U16 u` (R94). -/
def execEncU16 (u : Value16) (s : State) : Answer :=
  if s.encMode ≠ .u16 then s.illegalSequence
  else (s.emitEnc (tripleSymbols u)).ok

/-- `ENC_END` (R95). -/
def execEncEnd (s : State) : Answer :=
  if s.encMode = .idle then s.illegalSequence
  else if s.encMode = .bytes ∧ s.encHv = true then ((s.emitEnc (tailSymbols s.encHb)).closeEnc).ok
  else s.closeEnc.ok

/-- `ENC_ABORT` (R96). -/
def execEncAbort (s : State) : Answer := s.closeEnc.ok

end Sys2Proof.Machine
end

