-- ==== Sys2Proof/Machine/Lut.lean ====
section
/-! DEFINITION. The commands of the LUT unit (40_alphabet_lut.md). They read no state of ENC or DEC and write none (R87). -/

namespace Sys2Proof.Machine

/-- `LUT_FWD v` (R85). -/
def execLutFwd (v : Byte) (s : State) : Answer :=
  if h : v.toNat < 41 then s.complete { status := .ok, rdata := fwd ⟨v.toNat, h⟩, rvalid := true }
  else s.illegalOperand

/-- `LUT_REV b` (R86). -/
def execLutRev (b : Byte) (s : State) : Answer :=
  match rev s.cfg.revFilter b with
  | some x => s.complete { status := .ok, rdata := x.setWidth 8, rvalid := true }
  | none => s.complete { status := .ok, rdata := 0, rvalid := false }

end Sys2Proof.Machine
end

