-- ==== Sys2Proof/Machine/Dispatch.lean ====
section
/-! DEFINITION. What each command does once the block takes it: one arm per command. -/

namespace Sys2Proof.Machine

def exec (i : Instr) (s : State) : Host.Outcome State Fault Refusal :=
  match i with
  | .encStartBytes => Sys2Proof.Machine.execEncStartBytes s
  | .encStartU16 => Sys2Proof.Machine.execEncStartU16 s
  | .encByte b => Sys2Proof.Machine.execEncByte b s
  | .encU16 u => Sys2Proof.Machine.execEncU16 u s
  | .encEnd => Sys2Proof.Machine.execEncEnd s
  | .encAbort => Sys2Proof.Machine.execEncAbort s
  | .lutFwd v => Sys2Proof.Machine.execLutFwd v s
  | .lutRev b => Sys2Proof.Machine.execLutRev b s
  | .decStartBytes => Sys2Proof.Machine.execDecStartBytes s
  | .decStartU16 => Sys2Proof.Machine.execDecStartU16 s
  | .decSym b => Sys2Proof.Machine.execDecSym b s
  | .decEnd => Sys2Proof.Machine.execDecEnd s
  | .decAbort => Sys2Proof.Machine.execDecAbort s
  | .stat => Sys2Proof.Machine.execStat s

end Sys2Proof.Machine
end

