-- ==== Sys2Proof/Machine/Issue.lean ====
section
/-! DEFINITION. How the block takes the commands the host has issued (20_memory.md R46, R49, R50), and how the host's
interactions fall between them (70_reset_and_hazards.md R151, R161). -/

namespace Sys2Proof.Machine

/-- What a command word does once taken: its command, or ILLEGAL_COMMAND for a word that decodes to none (30_encoding.md
R60, R63). The decode comes before every other check (60_exceptions.md R141). -/
def executeWord (w : CmdWord) (s : State) : Answer :=
  match decode w with
  | .ok i => exec i s
  | .error _ => s.illegalCommand

/-- One step of the block and its host. The oldest command not yet taken is taken if its beats fit, as one atomic step
(R46). If they do not fit it is held, with no effect and no response (R50), and the host's next interaction happens; so it
does when no command waits. -/
def advance (s : State) : Answer :=
  match s.issued with
  | [] => .next s.hostStep
  | w :: _ =>
    match executeWord w s with
    | .next t => if s.overfills t then .next s.hostStep else .next t.dropIssued
    | .fault r => .fault r
    | .refused r => .refused r

end Sys2Proof.Machine
end

