-- ==== Sys2Proof/Machine/Step.lean ====
section
/-! DEFINITION. One step of the machine. The block fetches nothing (10_state.md R20): it takes the commands the host issues. -/

namespace Sys2Proof.Machine

/-- One step: a command taken whole, or one interaction of the host (00_scope.md R18, 20_memory.md R46). -/
def step (s : State) : Host.Outcome State Fault Refusal := advance s

/-- `s` with the command whose bits the opcode table numbers as `w` issued and next to be taken. -/
def State.withFetchWord (s : State) (nbits w : Nat) : State := s.placeCommand (tableWord nbits w)

end Sys2Proof.Machine
end

