-- ==== Sys2Proof/Machine/Reference.lean ====
section
/-! DEFINITION. The four entry points as whole-sequence reference functions (43_control_and_functions.md R119 to R122). They
depend only on their argument and on the reverse filter (R131). -/

namespace Sys2Proof.Machine

/-- What a reference decoder answers: `Ok(O)`, or `Err(kind, value, limit)` (R120, R122). -/
inductive Decoded (α : Type) where
  | ok (out : List α)
  | err (kind : ErrKind) (value limit : Nat)
deriving DecidableEq, Repr

/-- More output in front of an answer that is no error; an error answers nothing else (R129). -/
def Decoded.prepend {α : Type} (xs : List α) : Decoded α → Decoded α
  | .ok out => .ok (xs ++ out)
  | .err k v l => .err k v l

/-- `encodeBytes(B)` (R119). -/
def encodeBytes : List Byte → List Byte
  | b0 :: b1 :: rest => tripleSymbols (bytePair b0 b1) ++ encodeBytes rest
  | [b] => tailSymbols b
  | [] => []

/-- `encodeU16(W)` (R121). -/
def encodeU16 (ws : List Value16) : List Byte := ws.flatMap tripleSymbols

/-- The filter: the values of the accepted bytes, in order (R120, 42_decoder.md R114). -/
def filterBytes (f : RevFilter) (bs : List Byte) : List Value6 := bs.filterMap (rev f)

/-- The groups of a byte-stream decode, first to last: triplets, then a remainder of one or two values (R120). -/
def decodeByteGroups : List Value6 → Decoded Byte
  | v0 :: v1 :: v2 :: rest =>
    let u := tripletValue v0 v1 v2
    if 65536 ≤ u then .err .overflow u 65535
    else (decodeByteGroups rest).prepend [BitVec.ofNat 8 (u >>> 8), BitVec.ofNat 8 (u &&& 0xFF)]
  | [v0, v1] =>
    let u8 := doubleValue v0 v1
    if u8 < 41 then .err .underflow u8 41
    else if 256 ≤ u8 then .err .overflow u8 255
    else .ok [BitVec.ofNat 8 u8]
  | [v0] => .ok [v0.setWidth 8]
  | [] => .ok []

/-- `decodeBytes(S)` (R120). -/
def decodeBytes (f : RevFilter) (bs : List Byte) : Decoded Byte := decodeByteGroups (filterBytes f bs)

/-- The groups of a 16-bit decode; a leftover is a contract violation, found after every triplet before it (R122). -/
def decodeU16Groups : List Value6 → Decoded Value16
  | v0 :: v1 :: v2 :: rest =>
    let u := tripletValue v0 v1 v2
    if 65536 ≤ u then .err .overflow u 65535
    else (decodeU16Groups rest).prepend [BitVec.ofNat 16 u]
  | [_, _] => .err .contract 2 0
  | [_] => .err .contract 1 0
  | [] => .ok []

/-- `decodeU16(S)` (R122). -/
def decodeU16 (f : RevFilter) (bs : List Byte) : Decoded Value16 := decodeU16Groups (filterBytes f bs)

/-- The values of the leading triplets that do not overflow: the groups before a failing one (R123(d)). -/
def goodTriplets : List Value6 → List Nat
  | v0 :: v1 :: v2 :: rest =>
    let u := tripletValue v0 v1 v2
    if 65536 ≤ u then [] else u :: goodTriplets rest
  | _ => []

/-- How many raw bytes there are up to and with the `n`-th byte that the filter accepts; all of them if fewer are accepted. -/
def bytesThrough (f : RevFilter) : Nat → List Byte → Nat
  | 0, _ => 0
  | _, [] => 0
  | n + 1, b :: bs => (if (rev f b).isSome then bytesThrough f n bs else bytesThrough f (n + 1) bs) + 1

/-- Where a failing decode session fails: how many of its responses come before the failing one. The START and the symbols before
the one that completes the failing triplet come before a triplet that overflows; the START and every symbol come before a failing
remainder, which DEC_END answers (R123(d)). -/
def responsesBeforeFailure (f : RevFilter) (bs : List Byte) : Nat :=
  let completed := 3 * (goodTriplets (filterBytes f bs)).length + 3
  if completed ≤ (filterBytes f bs).length then bytesThrough f completed bs else bs.length + 1

end Sys2Proof.Machine
end

