-- ==== Sys2Proof/Machine/Session.lean ====
section
/-! DEFINITION. The session pseudo-commands as lists of commands (30_encoding.md R76, R77), a list of commands taken one
after the other (20_memory.md R49), and what a host makes of a decoder session (43_control_and_functions.md R129), and the result of a session
(70_reset_and_hazards.md R162). -/

namespace Sys2Proof.Machine

/-- `BYTES "s"` (R76). -/
def bytesCmds (bs : List Byte) : List Instr := bs.map Instr.encByte

/-- `SYMS "s"` (R76). -/
def symsCmds (bs : List Byte) : List Instr := bs.map Instr.decSym

/-- `ENCODE_BYTES "s"` (R76). -/
def encodeBytesCmds (bs : List Byte) : List Instr := [.encStartBytes] ++ bytesCmds bs ++ [.encEnd]

/-- `DECODE_BYTES "s"` (R76). -/
def decodeBytesCmds (bs : List Byte) : List Instr := [.decStartBytes] ++ symsCmds bs ++ [.decEnd]

/-- `DECODE_U16 "s"` (R76). -/
def decodeU16Cmds (bs : List Byte) : List Instr := [.decStartU16] ++ symsCmds bs ++ [.decEnd]

/-- `ENCODE_U16 w0, w1, ...` (R77). -/
def encodeU16Cmds (ws : List Value16) : List Instr := [.encStartU16] ++ ws.map Instr.encU16 ++ [.encEnd]

/-- A list of commands, each whole before the next (20_memory.md R49). -/
def execAll : List Instr → State → Answer
  | [], s => .next s
  | i :: is, s =>
    match exec i s with
    | .next t => execAll is t
    | .fault r => .fault r
    | .refused r => .refused r

/-! ### The result of a session (70_reset_and_hazards.md R162) -/

/-- Every ENC_OUT beat of the run so far, popped or not, in order (20_memory.md R51). -/
def encStream (s : State) : List Byte := s.encPopped ++ s.encOut

/-- Every DEC_OUT beat of the run so far, popped or not, in order (20_memory.md R51). -/
def decStream (s : State) : List DecBeat := s.decPopped ++ s.decOut

/-- The result of a session that has ended at its END or by an error (R162). A session that a START, an ABORT or a reset ended has
no result in R162. -/
inductive SessionResult (α : Type) where
  /-- It ended at END with OK: the beats it appended. -/
  | finished (beats : List α)
  /-- It ended by an error: the error record, and the beats appended before the error. -/
  | failed (kind : ErrKind) (value limit : Nat) (beats : List α)
deriving DecidableEq, Repr

/-- The result of an encoder session that began when `encStream` had `before` beats and has ended in `t` (R162). No error can end
it (41_encoder.md R97). -/
def encSessionResult (before : Nat) (t : State) : SessionResult Byte := .finished ((encStream t).drop before)

/-- The result of a decoder session that began when `decStream` had `before` beats and has ended in `t`, at its END or by an error
(R162). -/
def decSessionResult (before : Nat) (t : State) : SessionResult DecBeat :=
  if t.decMode = .error then .failed t.decEk t.decEv.toNat t.decEl.toNat ((decStream t).drop before)
  else .finished ((decStream t).drop before)

/-- What a host that offers the materialized function returns of a session: its beats, or only its error (R129). -/
def SessionResult.materialize {α : Type} : SessionResult α → Decoded α
  | .finished beats => .ok beats
  | .failed kind value limit _ => .err kind value limit

end Sys2Proof.Machine
end

