-- ==== Sys2Proof/Machine/Assembler.lean ====
section
/-! DEFINITION. The command text: one command a line, its operand forms, the pseudo-commands and the listing
(30_encoding.md R74 to R78). What those rules leave open is fixed in log 14 and log 16. -/

namespace Sys2Proof.Machine

/-- Why a line is a syntax error (R74 to R77). -/
inductive AsmError where
  /-- The first word is no mnemonic of R58 and no pseudo-command of R76 and R77 (names are case-sensitive, R74). -/
  | unknownMnemonic
  /-- The operand is missing, is not of a form of R75 to R77, or something follows it. -/
  | badOperand
  /-- The operand is outside its field (R75). -/
  | operandOutOfField
  /-- A command without an operand is written with one (R74). -/
  | operandNotTaken
deriving DecidableEq, Repr

/-- Space or tab (DESIGN CHOICE, log 14: R74 names no white space). -/
def isBlank (c : Char) : Bool := c == ' ' || c == '\t'

/-- The text without the blanks it begins with. -/
def skipBlanks (cs : List Char) : List Char := cs.dropWhile isBlank

/-- Only blanks and a comment are left: "A comment starts with `;` and runs to the end of the line" (R74). -/
def atEnd (cs : List Char) : Bool :=
  match skipBlanks cs with
  | [] => true
  | c :: _ => c == ';'

/-- The value of a decimal digit. -/
def decDigit (c : Char) : Option Nat :=
  if '0'.toNat ≤ c.toNat ∧ c.toNat ≤ '9'.toNat then some (c.toNat - '0'.toNat) else none

/-- The value of a hexadecimal digit, in either case (DESIGN CHOICE, log 14). -/
def hexDigit (c : Char) : Option Nat :=
  if 'a'.toNat ≤ c.toNat ∧ c.toNat ≤ 'f'.toNat then some (c.toNat - 'a'.toNat + 10)
  else if 'A'.toNat ≤ c.toNat ∧ c.toNat ≤ 'F'.toNat then some (c.toNat - 'A'.toNat + 10)
  else decDigit c

/-- The digits a text begins with, as a number in the given base onto `acc`, and the rest. -/
def readDigits (digit : Char → Option Nat) (base : Nat) : Nat → List Char → Nat × List Char
  | acc, [] => (acc, [])
  | acc, c :: cs =>
    match digit c with
    | some d => readDigits digit base (acc * base + d) cs
    | none => (acc, c :: cs)

/-- A number: at least one digit. -/
def readNumber (digit : Char → Option Nat) (base : Nat) (cs : List Char) : Option (Nat × List Char) :=
  match cs with
  | [] => none
  | c :: _ => if (digit c).isSome then some (readDigits digit base 0 cs) else none

/-- An operand (R75): a hexadecimal number, a character literal (its ASCII code) or a decimal number. -/
def readOperand : List Char → Option (Nat × List Char)
  | '0' :: 'x' :: cs => readNumber hexDigit 16 cs
  | '\'' :: c :: '\'' :: cs => if c.toNat < 128 then some (c.toNat, cs) else none
  | cs => readNumber decDigit 10 cs

/-- The bytes of a string after its opening quote, and what follows its closing quote (R76). -/
def readString : List Char → Option (List Byte × List Char)
  | [] => none
  | '"' :: cs => some ([], cs)
  | '\\' :: 'x' :: h :: l :: cs =>
    match hexDigit h, hexDigit l, readString cs with
    | some a, some b, some (bs, rest) => some (BitVec.ofNat 8 (a * 16 + b) :: bs, rest)
    | _, _, _ => none
  | '\\' :: c :: cs =>
    if c == '\\' || c == '"' then
      match readString cs with
      | some (bs, rest) => some (BitVec.ofNat 8 c.toNat :: bs, rest)
      | none => none
    else none
  | c :: cs =>
    if c.toNat < 128 ∧ c ≠ '\\' then
      match readString cs with
      | some (bs, rest) => some (BitVec.ofNat 8 c.toNat :: bs, rest)
      | none => none
    else none

/-- A value list `w0, w1, ...` (R77), read with at most `fuel` values. -/
def readValues : Nat → List Char → Option (List Nat)
  | 0, _ => none
  | fuel + 1, cs =>
    match readOperand (skipBlanks cs) with
    | none => none
    | some (w, rest) =>
      if atEnd rest then some [w]
      else
        match skipBlanks rest with
        | ',' :: more => (readValues fuel more).map (w :: ·)
        | _ => none

/-- A command without an operand (R74). -/
def asmNone (cs : List Char) (i : Instr) : Except AsmError (List Instr) :=
  if atEnd cs then .ok [i] else .error .operandNotTaken

/-- A command with one operand below `bound` (R75). -/
def asmOperand (cs : List Char) (bound : Nat) (mk : Nat → Instr) : Except AsmError (List Instr) :=
  match readOperand (skipBlanks cs) with
  | some (v, rest) =>
    if atEnd rest then if v < bound then .ok [mk v] else .error .operandOutOfField
    else .error .badOperand
  | none => .error .badOperand

/-- A pseudo-command with a byte string (R76). -/
def asmString (cs : List Char) (expand : List Byte → List Instr) : Except AsmError (List Instr) :=
  match skipBlanks cs with
  | '"' :: more =>
    match readString more with
    | some (bs, rest) => if atEnd rest then .ok (expand bs) else .error .badOperand
    | none => .error .badOperand
  | _ => .error .badOperand

/-- The pseudo-command with a value list (R77). A list of no values is taken as empty (DESIGN CHOICE, log 14). -/
def asmValues (cs : List Char) : Except AsmError (List Instr) :=
  if atEnd cs then .ok (encodeU16Cmds [])
  else
    match readValues (cs.length + 1) cs with
    | some ws =>
      if ws.all (fun w => w < 65536) then .ok (encodeU16Cmds (ws.map (BitVec.ofNat 16)))
      else .error .operandOutOfField
    | none => .error .badOperand

/-- What follows a mnemonic or the name of a pseudo-command, by that name (R58, R74 to R77). -/
def asmNamed (name : String) (cs : List Char) : Except AsmError (List Instr) :=
  if name = "ENC_START_BYTES" then asmNone cs .encStartBytes
  else if name = "ENC_START_U16" then asmNone cs .encStartU16
  else if name = "ENC_BYTE" then asmOperand cs 256 (fun v => .encByte (BitVec.ofNat 8 v))
  else if name = "ENC_U16" then asmOperand cs 65536 (fun v => .encU16 (BitVec.ofNat 16 v))
  else if name = "ENC_END" then asmNone cs .encEnd
  else if name = "ENC_ABORT" then asmNone cs .encAbort
  else if name = "LUT_FWD" then asmOperand cs 256 (fun v => .lutFwd (BitVec.ofNat 8 v))
  else if name = "LUT_REV" then asmOperand cs 256 (fun v => .lutRev (BitVec.ofNat 8 v))
  else if name = "DEC_START_BYTES" then asmNone cs .decStartBytes
  else if name = "DEC_START_U16" then asmNone cs .decStartU16
  else if name = "DEC_SYM" then asmOperand cs 256 (fun v => .decSym (BitVec.ofNat 8 v))
  else if name = "DEC_END" then asmNone cs .decEnd
  else if name = "DEC_ABORT" then asmNone cs .decAbort
  else if name = "STAT" then asmNone cs .stat
  else if name = "ENCODE_BYTES" then asmString cs encodeBytesCmds
  else if name = "DECODE_BYTES" then asmString cs decodeBytesCmds
  else if name = "DECODE_U16" then asmString cs decodeU16Cmds
  else if name = "ENCODE_U16" then asmValues cs
  else if name = "BYTES" then asmString cs bytesCmds
  else if name = "SYMS" then asmString cs symsCmds
  else .error .unknownMnemonic

/-- A character of a mnemonic: the name of a command ends at a blank or a comment (DESIGN CHOICE, log 14). -/
def isNameChar (c : Char) : Bool := !isBlank c && c != ';'

/-- The commands of one line of text (R74). A line of blanks or of a comment alone has none (DESIGN CHOICE, log 14). -/
def assembleLine (line : List Char) : Except AsmError (List Instr) :=
  let cs := skipBlanks line
  if atEnd cs then .ok []
  else asmNamed (String.ofList (cs.takeWhile isNameChar)) (cs.dropWhile isNameChar)

/-- The lines of a text. A line ends at the newline character (0x0A) alone or at the end of the text; a carriage return before it
stays in the line and is no blank (DESIGN CHOICE, log 14: R74 says "one command per line" and names no terminator). -/
def splitLines : List Char → List (List Char)
  | [] => [[]]
  | c :: cs =>
    match splitLines cs with
    | [] => [[c]]
    | l :: ls => if c == '\n' then [] :: l :: ls else (c :: l) :: ls

/-- The commands of a text, line by line (R74), or the first syntax error with the number of its line, from 0 (DESIGN CHOICE, log
14: R74 does not say how an error is reported). -/
def assembleLines : Nat → List (List Char) → Except (Nat × AsmError) (List Instr)
  | _, [] => .ok []
  | n, l :: ls =>
    match assembleLine l, assembleLines (n + 1) ls with
    | .error e, _ => .error (n, e)
    | .ok _, .error e => .error e
    | .ok is, .ok more => .ok (is ++ more)

/-- The commands of a text (R74 to R77). -/
def assemble (text : List Char) : Except (Nat × AsmError) (List Instr) := assembleLines 0 (splitLines text)

/-! ### The listing (R78) -/

/-- A hexadecimal digit as a character. -/
def hexChar (n : BitVec 4) : Char :=
  if n.toNat < 10 then Char.ofNat ('0'.toNat + n.toNat) else Char.ofNat ('A'.toNat + (n.toNat - 10))

/-- Two hexadecimal digits. -/
def hexByte (b : Byte) : List Char := [hexChar (b.extractLsb' 4 4), hexChar (b.extractLsb' 0 4)]

/-- Four hexadecimal digits. -/
def hexValue16 (u : Value16) : List Char := hexByte (u.extractLsb' 8 8) ++ hexByte (u.extractLsb' 0 8)

/-- Eight hexadecimal digits: "the word is 8 hex digits" (R78). -/
def hexWord (w : CmdWord) : List Char := hexValue16 (w.extractLsb' 16 16) ++ hexValue16 (w.extractLsb' 0 16)

/-- A command as a line of text: its mnemonic, and its operand in hexadecimal (R74, R75). -/
def cmdText (i : Instr) : List Char :=
  match i with
  | .encStartBytes => i.mnemonic.toList
  | .encStartU16 => i.mnemonic.toList
  | .encByte b => i.mnemonic.toList ++ [' ', '0', 'x'] ++ hexByte b
  | .encU16 u => i.mnemonic.toList ++ [' ', '0', 'x'] ++ hexValue16 u
  | .encEnd => i.mnemonic.toList
  | .encAbort => i.mnemonic.toList
  | .lutFwd v => i.mnemonic.toList ++ [' ', '0', 'x'] ++ hexByte v
  | .lutRev b => i.mnemonic.toList ++ [' ', '0', 'x'] ++ hexByte b
  | .decStartBytes => i.mnemonic.toList
  | .decStartU16 => i.mnemonic.toList
  | .decSym b => i.mnemonic.toList ++ [' ', '0', 'x'] ++ hexByte b
  | .decEnd => i.mnemonic.toList
  | .decAbort => i.mnemonic.toList
  | .stat => i.mnemonic.toList

/-- The decimal digits of a position. -/
def decimalText (n : Nat) : List Char := Nat.toDigits 10 n

/-- One line of a listing: `index: word  mnemonic operand` (R78). A word that is no command is shown as in
95_test_vectors.md section 3.6. -/
def listingLine (index : Nat) (w : CmdWord) : List Char :=
  decimalText index ++ [':', ' '] ++ hexWord w ++ [' ', ' '] ++
    match decode w with
    | .ok i => cmdText i
    | .error _ => "(illegal word)".toList

/-- The listing of a sequence of words, the first at position `index` (R78: "from 0"). -/
def listing : Nat → List CmdWord → List (List Char)
  | _, [] => []
  | index, w :: ws => listingLine index w :: listing (index + 1) ws

end Sys2Proof.Machine
end

