-- ==== Sys2Proof/Safety.lean ====
section
/-! DEFINITION. What counts as a good state and a good run: the invariants of 10_state.md R34 with those of the channels and
the record, the faults of the host program that a response reports (93_implementation_defined.md U3, U7, U12), when a session
and a run are over (70_reset_and_hazards.md R162), and each unit's share of the state (60_exceptions.md R148). -/

namespace Sys2Proof.Machine

/-! ### The invariant -/

/-- The error record is one that a cause of 60_exceptions.md R133 writes; NONE holds 0 and 0 (10_state.md R30, R31, R34(d)). -/
def RecordLegal (k : ErrKind) (value limit : Nat) : Prop :=
  match k with
  | .none => value = 0 ∧ limit = 0
  | .overflow => (65536 ≤ value ∧ value ≤ 68920 ∧ limit = 65535) ∨ (256 ≤ value ∧ value ≤ 1680 ∧ limit = 255)
  | .underflow => value < 41 ∧ limit = 41
  | .contract => (value = 1 ∨ value = 2) ∧ limit = 0

/-- An ENC_OUT beat is a symbol of the alphabet (30_encoding.md R70). -/
def EncBeatLegal (b : Byte) : Prop := ∃ d : Digit, b = fwd d

/-- A DEC_OUT beat is a 16-bit value with WIDE = 1 or an octet with WIDE = 0 (30_encoding.md R71). -/
def DecBeatLegal (b : DecBeat) : Prop := (∃ u : Value16, b = wideBeat u) ∨ (∃ x : Byte, b = narrowBeat x)

/-- A response word: the reserved bits 15 and 63:49 are 0 and STATUS is 0 to 6 (30_encoding.md R64, R72). -/
def ResponseLegal (w : RespWord) : Prop :=
  w.extractLsb' 15 1 = 0 ∧ w.extractLsb' 49 15 = 0 ∧ (statusField w).toNat ≤ 6

/-- A channel holds at most `P_OUT_DEPTH` beats (20_memory.md R50). -/
def WithinDepth (d : OutDepth) (beats : Nat) : Prop :=
  match d with
  | .unbounded => True
  | .finite n => beats ≤ n

/-- The invariant of the block: 10_state.md R34, and what the rules say of the channels, the record and the responses. -/
structure Inv (s : State) : Prop where
  /-- R34(a) -/
  heldByte : s.encHv = true → s.encMode = .bytes
  /-- R34(b) -/
  gathered : s.decCnt ≠ 0 → s.decMode = .bytes ∨ s.decMode = .u16
  /-- R34(c) -/
  errorMode : s.decMode = .error ↔ s.decEk ≠ .none
  /-- R34(d), R31, R133 -/
  record : RecordLegal s.decEk s.decEv.toNat s.decEl.toNat
  /-- R34(e) -/
  firstValue : s.decCnt ≠ 0 → s.decV0.toNat ≤ 40
  /-- R34(e) -/
  secondValue : s.decCnt = 2 → s.decV1.toNat ≤ 40
  /-- R70 -/
  encBeats : ∀ b ∈ s.encOut, EncBeatLegal b
  /-- R71 -/
  decBeats : ∀ b ∈ s.decOut, DecBeatLegal b
  /-- R50 -/
  encDepth : WithinDepth s.cfg.outDepth s.encOut.length
  /-- R50 -/
  decDepth : WithinDepth s.cfg.outDepth s.decOut.length
  /-- R64, R72 -/
  responsesLegal : ∀ w ∈ s.responses, ResponseLegal w

/-! ### The terms of the statements -/

/-- The symbol of a value as R79 writes the alphabet, the string of its 41 characters. -/
def symbolByte (v : Nat) : Byte :=
  BitVec.ofNat 8 (("0123456789jklmnopABCDEFGHIJKLMNOPQRSTUVWX".toList.getD v '0').toNat)

/-- The response word of a failing command as a number: `ERR_KIND = STATUS = k` (30_encoding.md R64, R65, R67). -/
def errorWord (k value limit : Nat) : RespWord := BitVec.ofNat 64 (k + 8192 * k + 65536 * limit + 4294967296 * value)

/-- The unit's mode does not allow the command: the commands and modes of 60_exceptions.md R138. -/
def WrongMode (i : Instr) (s : State) : Prop :=
  ((∃ b, i = .encByte b) ∧ s.encMode ≠ .bytes) ∨ ((∃ u, i = .encU16 u) ∧ s.encMode ≠ .u16) ∨
  (i = .encEnd ∧ s.encMode = .idle) ∨
  (((∃ b, i = .decSym b) ∨ i = .decEnd) ∧ (s.decMode = .idle ∨ s.decMode = .error))

/-- No command can be taken: none is issued, or the oldest one lacks room in its channel (20_memory.md R50). -/
def Waiting (s : State) : Prop :=
  s.issued = [] ∨
    ∃ w rest t n, s.issued = w :: rest ∧ executeWord w s = .next t ∧ s.cfg.outDepth = .finite n ∧
      ((s.encOut.length < t.encOut.length ∧ n < t.encOut.length) ∨
        (s.decOut.length < t.decOut.length ∧ n < t.decOut.length))

/-! ### Faults of the host program, sessions and runs -/

/-- A status that 93_implementation_defined.md treats as a fault of the host program: CONTRACT (U7), ILLEGAL_COMMAND (U12)
and ILLEGAL_OPERAND (U3). ILLEGAL_SEQUENCE is the host form of a sequence that is not resumed (R138) and is not among them. -/
def isHostFault (w : RespWord) : Bool :=
  statusField w == Status.contract.code || statusField w == Status.illegalCommand.code
    || statusField w == Status.illegalOperand.code

/-- A run is good while no response reports a fault of the host program (U3, U7, U12). -/
def goodRun (s : State) : Bool := s.responses.all (fun w => !isHostFault w)

/-- An encoder session is open (R162). -/
def encSessionOpen (s : State) : Bool := s.encMode != .idle

/-- A decoder session is open (R162): a session that ended in an error is not. -/
def decSessionOpen (s : State) : Bool := s.decMode == .bytes || s.decMode == .u16

/-- Whether an interaction issues a command. -/
def HostEvent.isIssue : HostEvent → Bool
  | .issue _ => true
  | .popEnc => false
  | .popDec => false
  | .reset => false

/-- A run of a host program is over: its last command has been issued and has responded (R162). A last command that reset
discarded has not responded, and a program without a command has no last one (log 20). -/
def runOver (s : State) : Bool :=
  s.issued.isEmpty && s.lastEnd == .answered && s.inbox.all (fun e => !e.isIssue)

/-! ### The two units -/

/-- The state and the channel of ENC (10_state.md R21). -/
structure EncUnit where
  mode : EncMode
  hv : Bool
  hb : Byte
  out : List Byte
deriving DecidableEq, Repr

/-- The state and the channel of DEC (10_state.md R21). -/
structure DecUnit where
  mode : DecMode
  cnt : Fin 3
  v0 : Value6
  v1 : Value6
  ek : ErrKind
  ev : BitVec 17
  el : BitVec 16
  out : List DecBeat
deriving DecidableEq, Repr

/-- ENC's share of the state. -/
def encUnit (s : State) : EncUnit := { mode := s.encMode, hv := s.encHv, hb := s.encHb, out := s.encOut }

/-- DEC's share of the state. -/
def decUnit (s : State) : DecUnit :=
  { mode := s.decMode, cnt := s.decCnt, v0 := s.decV0, v1 := s.decV1, ek := s.decEk, ev := s.decEv, el := s.decEl,
    out := s.decOut }

/-- Nothing of the host's side changed: what is issued, popped and still to come, and the parameters. -/
def SameHostSide (s t : State) : Prop :=
  t.issued = s.issued ∧ t.encPopped = s.encPopped ∧ t.decPopped = s.decPopped ∧ t.inbox = s.inbox ∧ t.cfg = s.cfg ∧
    t.lastEnd = s.lastEnd

end Sys2Proof.Machine
end

