-- ==== Sys2Proof/Certificates/Slice0/Obligations.lean ====
section
/-! DEFINITION. The statements of the model, in the order of OBLIGATIONS.json. Each docstring names the rules of spec/ that it
formalises. A statement about `exec` speaks of a command once the block takes it; when it is taken is the step's business
(`StepRunsTheDecodedCommand`, `HeldCommandWaitsForAPop`). Every statement holds for both parameters, since State carries them
(log 1). -/

open Sys2Proof Sys2Proof.Machine

/-! ### Encoding -/

/-- Decoding the word of any command gives the command back, with every operand at every value (R57 to R63). -/
def Obligations.DecodeOfEncodeIsTheCommand : Prop :=
  ∀ i : Instr, decode (encode i) = .ok i

/-- Every word that decodes is the word of the command it decodes to: no command has a second encoding (R59). -/
def Obligations.EncodeOfDecodedWordIsTheWord : Prop :=
  ∀ (w : CmdWord) (i : Instr), decode w = .ok i → encode i = w

/-- The decoder agrees on every word with the search of R63 through the match and mask rows of R59. -/
def Obligations.DecoderAgreesWithOpcodeRows : Prop :=
  ∀ w : CmdWord, decodeByTable w = match decode w with
    | .ok i => some i
    | .error _ => none

/-- No word matches two rows of R59. -/
def Obligations.OpcodeRowsAreDisjoint : Prop :=
  opcodeRows.Pairwise (fun r q => ∀ w : CmdWord, ¬ (r.matchesWord w = true ∧ q.matchesWord w = true))

/-- A word with OP 0x0 or 0xF, or with a bit of 27:16 set, decodes to no command (R60, R61). -/
def Obligations.ReservedWordsDecodeToNoCommand : Prop :=
  ∀ w : CmdWord,
    (w.toNat / 2 ^ 28 = 0 ∨ w.toNat / 2 ^ 28 = 15 ∨ w.toNat / 2 ^ 16 % 2 ^ 12 ≠ 0) → ∃ e, decode w = .error e

/-- Words written out from R58 and R59, one for each operand shape and each unit, decode to what they stand for. -/
def Obligations.WrittenWordsDecode : Prop :=
  decode 0x10000000 = .ok .encStartBytes ∧ decode 0x3000004A = .ok (.encByte 0x4A) ∧
  decode 0x400020AC = .ok (.encU16 0x20AC) ∧ decode 0x70000011 = .ok (.lutFwd 17) ∧
  decode 0x80000021 = .ok (.lutRev 0x21) ∧ decode 0xB000006B = .ok (.decSym 0x6B) ∧
  decode 0xC0000000 = .ok .decEnd ∧ decode 0xE0000000 = .ok .stat ∧
  decode 0x10000001 = .error .unusedOperandBits ∧ decode 0x30000100 = .error .unusedOperandBits ∧
  decode 0x4001FFFF = .error .reservedBits ∧ decode 0xF0000000 = .error .reservedOpcode

/-! ### The step -/

/-- When the oldest command issued decodes to `i` and its beats fit, the step is exec of `i`, and the command is then issued no
longer and counts as answered (R46, R49, R50, R63). The block has no program counter (R20). That the command is taken whatever
the host does next is the model's order (log 2, log 6). -/
def Obligations.StepRunsTheDecodedCommand : Prop :=
  ∀ (s t : State) (w : CmdWord) (rest : List CmdWord) (i : Instr),
    s.issued = w :: rest → decode w = .ok i → exec i s = .next t →
    WithinDepth s.cfg.outDepth t.encOut.length → WithinDepth s.cfg.outDepth t.decOut.length →
    step s = .next { t with issued := rest, lastEnd := .answered }

/-- A command whose beats do not fit is held: nothing happens while the host does nothing, and when the host pops, the pop
happens and nothing else: no response, no beat, and the command is still the oldest issued (R50, R159). -/
def Obligations.HeldCommandWaitsForAPop : Prop :=
  ∀ (s t : State) (w : CmdWord) (rest : List CmdWord) (n : Nat),
    s.issued = w :: rest → executeWord w s = .next t → s.cfg.outDepth = .finite n →
    ((s.encOut.length < t.encOut.length ∧ n < t.encOut.length) ∨
      (s.decOut.length < t.decOut.length ∧ n < t.decOut.length)) →
    (s.inbox = [] → step s = .next s) ∧
    (∀ es b bs, s.inbox = .popEnc :: es → s.encOut = b :: bs →
      step s = .next { s with inbox := es, encOut := bs, encPopped := s.encPopped ++ [b] }) ∧
    (∀ es b bs, s.inbox = .popDec :: es → s.decOut = b :: bs →
      step s = .next { s with inbox := es, decOut := bs, decPopped := s.decPopped ++ [b] })

/-- With `P_OUT_DEPTH = UNBOUNDED` the oldest command issued, whatever word it is, is never held: it is taken and responds
(R50). That it is taken on the very next step, whatever the host does next, is the model's order (log 6): R50 says only that it
is not held. The host's interactions to come are not touched. -/
def Obligations.UnboundedChannelsNeverHold : Prop :=
  ∀ (s : State) (w : CmdWord) (rest : List CmdWord),
    s.cfg.outDepth = .unbounded → s.issued = w :: rest →
    ∃ t r, step s = .next t ∧ t.issued = rest ∧ t.responses = s.responses ++ [r] ∧ t.inbox = s.inbox

/-- An illegal word completes with STATUS = ILLEGAL_COMMAND, every other response field 0, no state change and no beat, whatever
the depth of the channels (R60, R137). That it completes on this step, whatever the host does next, is the model's order (log
6). -/
def Obligations.IllegalWordOnlyResponds : Prop :=
  ∀ (s : State) (w : CmdWord) (rest : List CmdWord) (e : DecodeError),
    s.issued = w :: rest → decode w = .error e →
    step s = .next { s with issued := rest, lastEnd := .answered, responses := s.responses ++ [4] }

/-- Whenever no command can be taken, a pop returns the head beat and changes nothing but its channel; a pop of an empty channel
returns nothing and changes nothing (R51, R161). The order of the host's interactions and of the commands is the model's (log 2,
log 6). -/
def Obligations.PopReturnsTheHeadBeat : Prop :=
  ∀ (s : State) (es : List HostEvent), Waiting s →
    (s.inbox = .popEnc :: es →
      (s.encOut = [] → step s = .next { s with inbox := es }) ∧
      (∀ b bs, s.encOut = b :: bs →
        step s = .next { s with inbox := es, encOut := bs, encPopped := s.encPopped ++ [b] })) ∧
    (s.inbox = .popDec :: es →
      (s.decOut = [] → step s = .next { s with inbox := es }) ∧
      (∀ b bs, s.decOut = b :: bs →
        step s = .next { s with inbox := es, decOut := bs, decPopped := s.decPopped ++ [b] }))

/-- Whenever no command can be taken, the reset event puts every field at its reset value, empties both channels and discards
the command held, with no response (R151, R152, R153). That it also discards the commands behind the one held is the model's
reading (log 3). What the host has been given, what it does next and the parameters stay (log 5); the record says that commands
were discarded (log 20). That the event waits for a command that fits is the model's order (log 6). -/
def Obligations.ResetEventGivesTheResetState : Prop :=
  ∀ (s : State) (es : List HostEvent), Waiting s → s.inbox = .reset :: es →
    step s = .next
      { encMode := .idle, encHv := false, encHb := 0, decMode := .idle, decCnt := 0, decV0 := 0, decV1 := 0,
        decEk := .none, decEv := 0, decEl := 0, encOut := [], decOut := [], issued := [],
        lastEnd := (if s.issued = [] then s.lastEnd else .discarded), responses := s.responses, encPopped := s.encPopped, decPopped := s.decPopped, inbox := es, cfg := s.cfg }

/-- Whenever no command can be taken, a command the host issues waits behind those not yet taken, and with nothing to come the
state stays as it is (R49, R150). The place behind the others is the model's reading (log 3). -/
def Obligations.IssuedCommandWaitsItsTurn : Prop :=
  ∀ s : State, Waiting s →
    (∀ w es, s.inbox = .issue w :: es → step s = .next { s with inbox := es, issued := s.issued ++ [w] }) ∧
    (s.inbox = [] → step s = .next s)

/-- The block raises no traps: every step of every state answers a next state (R132). -/
def Obligations.EveryStepAnswersNext : Prop :=
  ∀ s : State, ∃ t, step s = .next t

/-- No step changes a parameter (R40). -/
def Obligations.StepKeepsTheParameters : Prop :=
  ∀ s t : State, step s = .next t → t.cfg = s.cfg

/-- Beats stay in a channel until the host pops them or reset clears the channel (R54): on every step but that of a reset event
(one on which no command can be taken and a reset is the host's next interaction), what has been popped followed by what the
channel holds only grows at its end. So a pop returns beats in FIFO order (R51). -/
def Obligations.BeatsStayUntilPoppedOrReset : Prop :=
  ∀ s t : State, step s = .next t → ¬ (Waiting s ∧ ∃ es, s.inbox = .reset :: es) →
    encStream s <+: encStream t ∧ decStream s <+: decStream t

/-- Every step keeps the invariant of the block: R34, and what the rules say of the error record (R31, R133), the beats (R70,
R71), the depth of the channels (R50) and the responses (R64, R72). In the record, the limit 255 of a double overflow and the
value and limit of CONTRACT are the spec's own choice (R140, U4; log 8). -/
def Obligations.StepKeepsTheInvariant : Prop :=
  ∀ s t : State, Inv s → step s = .next t → Inv t

/-- The reset state meets the invariant (R34). -/
def Obligations.ResetMeetsTheInvariant : Prop := Inv State.reset

/-- The reset state has the values of R38 and R152. -/
def Obligations.ResetStateHasTheResetValues : Prop :=
  State.reset.encMode = .idle ∧ State.reset.encHv = false ∧ State.reset.encHb = 0 ∧
  State.reset.decMode = .idle ∧ State.reset.decCnt = 0 ∧ State.reset.decV0 = 0 ∧ State.reset.decV1 = 0 ∧
  State.reset.decEk = .none ∧ State.reset.decEv = 0 ∧ State.reset.decEl = 0 ∧
  State.reset.encOut = [] ∧ State.reset.decOut = []

/-- With unbounded channels, the commands the host has issued are taken in order, one a step, each with the effect exec gives it
(R46, R49), and when nothing more is to come the run is over at the last of them and not before (R162). That they are all taken
before the host's next interaction is the model's order (log 6). -/
def Obligations.IssuedCommandsRunInOrder : Prop :=
  ∀ (is : List Instr) (s : State), s.issued = is.map encode → s.cfg.outDepth = .unbounded →
    ∃ t u : State, execAll is s = .next t ∧ core.run is.length s = .next u ∧
      u = { t with issued := [], lastEnd := if is = [] then s.lastEnd else .answered } ∧
      (s.inbox = [] → is ≠ [] → runOver u = true ∧
        ∀ k, k < is.length → ∃ v, core.run k s = .next v ∧ runOver v = false)

/-! ### The lookups -/

/-- The forward table is the string of R79, its residues modulo 48 are the values (R81), it is injective, and it lies between 32
and 127. -/
def Obligations.AlphabetIsTheStringOfR79 : Prop :=
  (∀ d : Digit, fwd d = symbolByte d.val ∧ (fwd d).toNat % 48 = d.val ∧ 32 < (fwd d).toNat ∧ (fwd d).toNat < 127) ∧
  (∀ d e : Digit, fwd d = fwd e → d = e)

/-- The reverse lookup in both modes (R82): the residue modulo 48 of an accepted byte, or the position in the table. -/
def Obligations.ReverseLookupIsR82 : Prop :=
  ∀ (b : Byte) (x : Value6),
    (rev .modular b = some x ↔ 32 < b.toNat ∧ b.toNat < 127 ∧ b.toNat % 48 < 41 ∧ x.toNat = b.toNat % 48) ∧
    (rev .strict b = some x ↔ ∃ v : Nat, v ≤ 40 ∧ symbolByte v = b ∧ x.toNat = v)

/-- The two lookups agree on the alphabet, never answer a value above 40, and the two modes differ exactly on the bytes that
MODULAR accepts and the alphabet does not hold, 39 of them (R83, R84). MODULAR accepts 0x21..0x28, 0x30..0x58 and 0x60..0x7E. -/
def Obligations.ReverseLookupsAgreeOnTheAlphabet : Prop :=
  (∀ (f : RevFilter) (d : Digit), rev f (fwd d) = some (BitVec.ofNat 6 d.val)) ∧
  (∀ (f : RevFilter) (b : Byte) (x : Value6), rev f b = some x → x.toNat ≤ 40) ∧
  (∀ b : Byte, (rev .modular b).isSome = true ↔
    (0x21 ≤ b.toNat ∧ b.toNat ≤ 0x28) ∨ (0x30 ≤ b.toNat ∧ b.toNat ≤ 0x58) ∨ (0x60 ≤ b.toNat ∧ b.toNat ≤ 0x7E)) ∧
  (∀ b : Byte, rev .modular b ≠ rev .strict b ↔ (rev .modular b).isSome = true ∧ ∀ d : Digit, fwd d ≠ b) ∧
  ((List.finRange 256).filter (fun n => rev .modular (BitVec.ofFin n) != rev .strict (BitVec.ofFin n))).length = 39

/-- LUT_FWD (word 0x700000vv) answers the symbol of an index 0..40 with RVALID, and ILLEGAL_OPERAND for 41..255; nothing else
changes (R85). -/
def Obligations.LutFwdAnswersTheSymbol : Prop :=
  ∀ (v : Byte) (s : State),
    (encode (.lutFwd v)).toNat = 0x70000000 + v.toNat ∧
    (v.toNat ≤ 40 → exec (.lutFwd v) s = .next
      { s with responses := s.responses ++ [BitVec.ofNat 64 (4096 + 16 * (symbolByte v.toNat).toNat)] }) ∧
    (41 ≤ v.toNat → exec (.lutFwd v) s = .next { s with responses := s.responses ++ [6] })

/-- LUT_REV (word 0x800000bb) answers the value of an accepted byte with RVALID, and the word 0 for a rejected one; nothing else
changes (R86). -/
def Obligations.LutRevAnswersTheValue : Prop :=
  ∀ (b : Byte) (s : State),
    (encode (.lutRev b)).toNat = 0x80000000 + b.toNat ∧
    (∀ x, rev s.cfg.revFilter b = some x → exec (.lutRev b) s = .next
      { s with responses := s.responses ++ [BitVec.ofNat 64 (4096 + 16 * x.toNat)] }) ∧
    (rev s.cfg.revFilter b = none → exec (.lutRev b) s = .next { s with responses := s.responses ++ [0] })

/-! ### The encoder -/

/-- The START commands of ENC (words 0x10000000, 0x20000000) open a session in every mode, discard an open one, and touch
nothing else: beats already emitted stay (R91, R92). -/
def Obligations.EncStartOpensASession : Prop :=
  encode .encStartBytes = 0x10000000 ∧ encode .encStartU16 = 0x20000000 ∧ ∀ s : State,
    exec .encStartBytes s = .next
      { s with encMode := .bytes, encHv := false, encHb := 0, responses := s.responses ++ [0] } ∧
    exec .encStartU16 s = .next
      { s with encMode := .u16, encHv := false, encHb := 0, responses := s.responses ++ [0] }

/-- ENC_BYTE (word 0x300000bb): rejected outside a BYTES session; the first byte of a pair is held; the second emits the three
symbols whose positions are the base-41 digits, low first, of the big-endian pair (R93). -/
def Obligations.EncBytePairsBytes : Prop :=
  ∀ (b : Byte) (s : State),
    (encode (.encByte b)).toNat = 0x30000000 + b.toNat ∧
    (s.encMode ≠ .bytes → exec (.encByte b) s = .next { s with responses := s.responses ++ [5] }) ∧
    (s.encMode = .bytes → s.encHv = false → exec (.encByte b) s = .next
      { s with encHb := b, encHv := true, responses := s.responses ++ [0] }) ∧
    (s.encMode = .bytes → s.encHv = true → ∃ d0 d1 d2 : Nat, d0 ≤ 40 ∧ d1 ≤ 40 ∧ d2 ≤ 38 ∧
      256 * s.encHb.toNat + b.toNat = d0 + 41 * d1 + 1681 * d2 ∧
      exec (.encByte b) s = .next
        { s with encHv := false, encOut := s.encOut ++ [symbolByte d0, symbolByte d1, symbolByte d2],
                 responses := s.responses ++ [0] })

/-- ENC_U16 (word 0x4000uuuu): rejected outside a U16 session; otherwise it emits the three symbols whose positions are the
base-41 digits, low first, of the value (R94). -/
def Obligations.EncU16EmitsThreeSymbols : Prop :=
  ∀ (u : Value16) (s : State),
    (encode (.encU16 u)).toNat = 0x40000000 + u.toNat ∧
    (s.encMode ≠ .u16 → exec (.encU16 u) s = .next { s with responses := s.responses ++ [5] }) ∧
    (s.encMode = .u16 → ∃ d0 d1 d2 : Nat, d0 ≤ 40 ∧ d1 ≤ 40 ∧ d2 ≤ 38 ∧
      u.toNat = d0 + 41 * d1 + 1681 * d2 ∧
      exec (.encU16 u) s = .next
        { s with encOut := s.encOut ++ [symbolByte d0, symbolByte d1, symbolByte d2],
                 responses := s.responses ++ [0] })

/-- ENC_END (word 0x50000000): rejected when IDLE; a held byte emits its low digit's symbol and, only if it is above 0, its high
digit's; the session closes (R95). -/
def Obligations.EncEndEmitsTheRemainder : Prop :=
  encode .encEnd = 0x50000000 ∧ ∀ s : State,
    (s.encMode = .idle → exec .encEnd s = .next { s with responses := s.responses ++ [5] }) ∧
    (s.encMode = .bytes → s.encHv = true → ∃ lo hi : Nat, lo ≤ 40 ∧ hi ≤ 6 ∧ s.encHb.toNat = lo + 41 * hi ∧
      exec .encEnd s = .next
        { s with encMode := .idle, encHv := false,
                 encOut := s.encOut ++ (if 0 < hi then [symbolByte lo, symbolByte hi] else [symbolByte lo]),
                 responses := s.responses ++ [0] }) ∧
    (s.encMode ≠ .idle → ¬ (s.encMode = .bytes ∧ s.encHv = true) → exec .encEnd s = .next
      { s with encMode := .idle, encHv := false, responses := s.responses ++ [0] })

/-- ENC_ABORT (word 0x60000000) drops the session and a held byte in every mode and emits nothing (R96). -/
def Obligations.EncAbortDropsTheSession : Prop :=
  encode .encAbort = 0x60000000 ∧ ∀ s : State, exec .encAbort s = .next
    { s with encMode := .idle, encHv := false, responses := s.responses ++ [0] }

/-! ### The decoder -/

/-- The START commands of DEC (words 0x90000000, 0xA0000000) open a session in every mode, ERROR among them, discard the values
gathered and the error record, and leave the beats already emitted (R105, R106). -/
def Obligations.DecStartOpensASession : Prop :=
  encode .decStartBytes = 0x90000000 ∧ encode .decStartU16 = 0xA0000000 ∧ ∀ s : State,
    exec .decStartBytes s = .next
      { s with decMode := .bytes, decCnt := 0, decV0 := 0, decV1 := 0, decEk := .none, decEv := 0, decEl := 0,
               responses := s.responses ++ [0] } ∧
    exec .decStartU16 s = .next
      { s with decMode := .u16, decCnt := 0, decV0 := 0, decV1 := 0, decEk := .none, decEv := 0, decEl := 0,
               responses := s.responses ++ [0] }

/-- DEC_SYM (word 0xB00000bb, R107): rejected outside a session; a byte the filter rejects changes nothing; the first and the
second accepted value are held; the third completes a triplet, which overflows at 65536 into the ERROR mode and its record, or
is emitted as two octets, high first, or as one wide beat. -/
def Obligations.DecSymGathersTriplets : Prop :=
  ∀ (b : Byte) (s : State),
    (encode (.decSym b)).toNat = 0xB0000000 + b.toNat ∧
    (s.decMode ≠ .bytes → s.decMode ≠ .u16 → exec (.decSym b) s = .next { s with responses := s.responses ++ [5] }) ∧
    (s.decMode = .bytes ∨ s.decMode = .u16 →
      (rev s.cfg.revFilter b = none → exec (.decSym b) s = .next { s with responses := s.responses ++ [0] }) ∧
      (∀ x u, rev s.cfg.revFilter b = some x → u = s.decV0.toNat + 41 * s.decV1.toNat + 1681 * x.toNat →
        (s.decCnt = 0 → exec (.decSym b) s = .next
          { s with decV0 := x, decCnt := 1, responses := s.responses ++ [0] }) ∧
        (s.decCnt = 1 → exec (.decSym b) s = .next
          { s with decV1 := x, decCnt := 2, responses := s.responses ++ [0] }) ∧
        (s.decCnt = 2 → 65536 ≤ u → exec (.decSym b) s = .next
          { s with decMode := .error, decCnt := 0, decEk := .overflow, decEv := BitVec.ofNat 17 u, decEl := 65535,
                   responses := s.responses ++ [errorWord 1 u 65535] }) ∧
        (s.decCnt = 2 → u < 65536 → s.decMode = .bytes → exec (.decSym b) s = .next
          { s with decCnt := 0, decOut := s.decOut ++ [BitVec.ofNat 17 (u / 256), BitVec.ofNat 17 (u % 256)],
                   responses := s.responses ++ [0] }) ∧
        (s.decCnt = 2 → u < 65536 → s.decMode = .u16 → exec (.decSym b) s = .next
          { s with decCnt := 0, decOut := s.decOut ++ [BitVec.ofNat 17 (65536 + u)],
                   responses := s.responses ++ [0] })))

/-- DEC_END (word 0xC0000000) in a BYTES session (R108): nothing gathered closes it; one value is emitted as it is; two values
of 41..255 are emitted as one octet, below 41 they underflow, from 256 on they overflow. In IDLE and ERROR it is rejected. The
limit 255 of the double group is the spec's own choice (R103, U4; log 8). -/
def Obligations.DecEndClosesABytesSession : Prop :=
  encode .decEnd = 0xC0000000 ∧ ∀ (s : State) (u : Nat), u = s.decV0.toNat + 41 * s.decV1.toNat →
    (s.decMode = .idle ∨ s.decMode = .error → exec .decEnd s = .next { s with responses := s.responses ++ [5] }) ∧
    (s.decMode = .bytes →
      (s.decCnt = 0 → exec .decEnd s = .next { s with decMode := .idle, responses := s.responses ++ [0] }) ∧
      (s.decCnt = 1 → exec .decEnd s = .next
        { s with decMode := .idle, decCnt := 0, decOut := s.decOut ++ [BitVec.ofNat 17 s.decV0.toNat],
                 responses := s.responses ++ [0] }) ∧
      (s.decCnt = 2 → u < 41 → exec .decEnd s = .next
        { s with decMode := .error, decCnt := 0, decEk := .underflow, decEv := BitVec.ofNat 17 u, decEl := 41,
                 responses := s.responses ++ [errorWord 2 u 41] }) ∧
      (s.decCnt = 2 → 256 ≤ u → exec .decEnd s = .next
        { s with decMode := .error, decCnt := 0, decEk := .overflow, decEv := BitVec.ofNat 17 u, decEl := 255,
                 responses := s.responses ++ [errorWord 1 u 255] }) ∧
      (s.decCnt = 2 → 41 ≤ u → u ≤ 255 → exec .decEnd s = .next
        { s with decMode := .idle, decCnt := 0, decOut := s.decOut ++ [BitVec.ofNat 17 u],
                 responses := s.responses ++ [0] }))

/-- DEC_END in a U16 session (R109): nothing gathered closes it; one or two values left over are a contract violation, recorded
with their count and the limit 0, which is the spec's own choice (D7, U4; log 8). No beat in either case. -/
def Obligations.DecEndClosesAU16Session : Prop :=
  ∀ s : State, s.decMode = .u16 →
    (s.decCnt = 0 → exec .decEnd s = .next { s with decMode := .idle, responses := s.responses ++ [0] }) ∧
    (s.decCnt ≠ 0 → exec .decEnd s = .next
      { s with decMode := .error, decCnt := 0, decEk := .contract, decEv := BitVec.ofNat 17 s.decCnt.val, decEl := 0,
               responses := s.responses ++ [errorWord 3 s.decCnt.val 0] })

/-- DEC_ABORT (word 0xD0000000) drops the session, the values gathered and the error record in every mode and emits nothing
(R110). -/
def Obligations.DecAbortDropsTheSession : Prop :=
  encode .decAbort = 0xD0000000 ∧ ∀ s : State, exec .decAbort s = .next
    { s with decMode := .idle, decCnt := 0, decEk := .none, decEv := 0, decEl := 0, responses := s.responses ++ [0] }

/-- When the triplet that completes a group of a decoder session overflows, by its digits: from a high digit of 39 on always,
with a high digit of 38 exactly when the two lower digits make 1658 or more, and never below (R112). -/
def Obligations.TripletOverflowsByItsHighDigit : Prop :=
  ∀ (b : Byte) (s t : State) (x : Value6),
    s.decMode = .bytes ∨ s.decMode = .u16 → s.decCnt = 2 → s.decV0.toNat ≤ 40 → s.decV1.toNat ≤ 40 →
    rev s.cfg.revFilter b = some x → exec (.decSym b) s = .next t →
    (t.decMode = .error ↔
      39 ≤ x.toNat ∨ (x.toNat = 38 ∧ 1658 ≤ s.decV0.toNat + 41 * s.decV1.toNat))

/-- STAT (word 0xE0000000) answers the modes, the held-byte flag, the count and the error record in the places of R64 and R68,
and changes nothing else (R118). -/
def Obligations.StatAnswersTheSessionState : Prop :=
  encode .stat = 0xE0000000 ∧ ∀ s : State, exec .stat s = .next
    { s with responses := s.responses ++
      [BitVec.ofNat 64 (4096 + 16 * (s.encMode.code.toNat + 4 * s.encHv.toNat + 8 * s.decMode.code.toNat
        + 32 * s.decCnt.val) + 8192 * s.decEk.code.toNat + 65536 * s.decEl.toNat + 4294967296 * s.decEv.toNat)] }

/-! ### The whole machine -/

/-- Every command completes with exactly one response, whose reserved bits are 0 and whose STATUS is one of R66 (R64, R72). -/
def Obligations.EveryCommandRespondsOnce : Prop :=
  ∀ (i : Instr) (s : State), ∃ t r, exec i s = .next t ∧ t.responses = s.responses ++ [r] ∧ ResponseLegal r

/-- A command answers with STATUS = ILLEGAL_SEQUENCE exactly when it is one of the commands of R138 in one of the modes R138
names for it, and then nothing else changes: no state, no beat, every other response field 0. START, ABORT, LUT and STAT never
answer with it. -/
def Obligations.IllegalSequenceExactlyInWrongMode : Prop :=
  ∀ (i : Instr) (s : State),
    ((∃ t r, exec i s = .next t ∧ t.responses = s.responses ++ [r] ∧ statusField r = 5) ↔ WrongMode i s) ∧
    (WrongMode i s → exec i s = .next { s with responses := s.responses ++ [5] })

/-- No ENC command changes the state or the channel of DEC, no DEC command those of ENC, and LUT and STAT change neither; none
changes the host's side (R56, R87, R148). -/
def Obligations.UnitsLeaveEachOtherAlone : Prop :=
  ∀ (i : Instr) (s t : State), exec i s = .next t →
    SameHostSide s t ∧ (i.unit ≠ .dec → decUnit t = decUnit s) ∧ (i.unit ≠ .enc → encUnit t = encUnit s)

/-- LUT and STAT commands only respond: nothing else of the state changes (R55, R87, R118, R164). -/
def Obligations.LutAndStatOnlyRespond : Prop :=
  ∀ (i : Instr) (s : State), i.unit = .lut ∨ i.unit = .all →
    ∃ r, exec i s = .next { s with responses := s.responses ++ [r] }

/-- What an ENC command does and answers depends on nothing but the state of ENC, and what a DEC command does and answers on
nothing but the state of DEC and the reverse filter (R148, R163). -/
def Obligations.UnitResultsDependOnTheirOwnState : Prop :=
  ∀ (i : Instr) (s s' t t' : State), exec i s = .next t → exec i s' = .next t' →
    (i.unit = .enc → encUnit s = encUnit s' →
      encUnit t = encUnit t' ∧ ∃ r, t.responses = s.responses ++ [r] ∧ t'.responses = s'.responses ++ [r]) ∧
    (i.unit = .dec → decUnit s = decUnit s' → s.cfg.revFilter = s'.cfg.revFilter →
      decUnit t = decUnit t' ∧ ∃ r, t.responses = s.responses ++ [r] ∧ t'.responses = s'.responses ++ [r])

/-- An ENC command and a DEC command give the same states, channels and responses in either order (R148, R163). -/
def Obligations.EncAndDecCommandsCommute : Prop :=
  ∀ (i j : Instr) (s : State), i.unit = .enc → j.unit = .dec →
    ∃ t u r q, execAll [i, j] s = .next t ∧ execAll [j, i] s = .next u ∧
      encUnit t = encUnit u ∧ decUnit t = decUnit u ∧
      t.responses = s.responses ++ [r, q] ∧ u.responses = s.responses ++ [q, r]

/-- A command only appends beats: at most three to ENC_OUT, only by ENC commands, and at most two to DEC_OUT, only by DEC
commands (R50, R54, R56). -/
def Obligations.CommandsOnlyAppendBeats : Prop :=
  ∀ (i : Instr) (s t : State), exec i s = .next t →
    ∃ e d, t.encOut = s.encOut ++ e ∧ t.decOut = s.decOut ++ d ∧ e.length ≤ 3 ∧ d.length ≤ 2 ∧
      (e ≠ [] → i.unit = .enc) ∧ (d ≠ [] → i.unit = .dec)

/-- Error entry (R111, R142): a command that answers OVERFLOW, UNDERFLOW or CONTRACT is DEC_SYM or DEC_END, emits no beat,
leaves ENC alone, empties the group, enters ERROR, and records the kind, the value and the limit of its response. -/
def Obligations.DataErrorsEnterTheErrorMode : Prop :=
  ∀ (i : Instr) (s t : State) (r : RespWord), exec i s = .next t → t.responses = s.responses ++ [r] →
    1 ≤ (statusField r).toNat → (statusField r).toNat ≤ 3 →
    (i = .decEnd ∨ ∃ b, i = .decSym b) ∧ encUnit t = encUnit s ∧ t.decOut = s.decOut ∧ t.decCnt = 0 ∧
    t.decMode = .error ∧ t.decEk.code.toNat = (statusField r).toNat ∧
    r = errorWord t.decEk.code.toNat t.decEv.toNat t.decEl.toNat

/-- In ERROR, the START and ABORT commands of DEC leave it and clear the record; every other command leaves the state of DEC as
it is (R117, R143). -/
def Obligations.ErrorModeIsLeftOnlyByStartOrAbort : Prop :=
  ∀ (i : Instr) (s t : State), s.decMode = .error → exec i s = .next t →
    ((i = .decStartBytes ∨ i = .decStartU16 ∨ i = .decAbort) →
      t.decMode ≠ .error ∧ t.decCnt = 0 ∧ t.decEk = .none ∧ t.decEv = 0 ∧ t.decEl = 0) ∧
    (¬ (i = .decStartBytes ∨ i = .decStartU16 ∨ i = .decAbort) → decUnit t = decUnit s)

/-- What is over stays over: without a START of its unit, a closed encoder session and a closed or failed decoder session emit
no more beats, whatever commands follow, and do not open again (R99, R143, R154). -/
def Obligations.ClosedSessionsDoNotResume : Prop :=
  ∀ (is : List Instr) (s t : State), execAll is s = .next t →
    (s.encMode = .idle → (∀ i ∈ is, i ≠ .encStartBytes ∧ i ≠ .encStartU16) → t.encMode = .idle ∧ t.encOut = s.encOut) ∧
    (s.decMode = .idle ∨ s.decMode = .error → (∀ i ∈ is, i ≠ .decStartBytes ∧ i ≠ .decStartU16) →
      (t.decMode = .idle ∨ t.decMode = s.decMode) ∧ t.decOut = s.decOut)

/-- No ENC command fails on its data: it answers OK, or ILLEGAL_SEQUENCE in the wrong mode (R97). -/
def Obligations.EncoderRaisesNoDataError : Prop :=
  ∀ (i : Instr) (s : State), i.unit = .enc →
    ∃ t r, exec i s = .next t ∧ t.responses = s.responses ++ [r] ∧ (r = 0 ∨ r = 5)

/-! ### Sessions and the reference functions -/

/-- ENCODE_BYTES from any state appends encodeBytes of its bytes and closes the session, every response OK (R123(a)). -/
def Obligations.EncodeBytesSessionIsEncodeBytes : Prop :=
  ∀ (bs : List Byte) (s : State), ∃ hb, execAll (encodeBytesCmds bs) s = .next
    { s with encMode := .idle, encHv := false, encHb := hb, encOut := s.encOut ++ encodeBytes bs,
             responses := s.responses ++ List.replicate (bs.length + 2) 0 }

/-- ENCODE_U16 from any state appends encodeU16 of its values and closes the session, every response OK (R123(b)). -/
def Obligations.EncodeU16SessionIsEncodeU16 : Prop :=
  ∀ (ws : List Value16) (s : State), ∃ hb, execAll (encodeU16Cmds ws) s = .next
    { s with encMode := .idle, encHv := false, encHb := hb, encOut := s.encOut ++ encodeU16 ws,
             responses := s.responses ++ List.replicate (ws.length + 2) 0 }

/-- DECODE_BYTES from any state (R123(c), (d)): where decodeBytes answers Ok, its octets are appended as narrow beats and every
response is OK; where it answers an error, the octets of the groups before the failing one are appended, the response of the
DEC_SYM that completes the failing triplet, or of DEC_END for a failing remainder, reports the error, those before it are OK,
those after it ILLEGAL_SEQUENCE, and the ERROR mode holds the record. The limit 255 of a double overflow is the spec's own
choice (R103, U4; log 8). -/
def Obligations.DecodeBytesSessionIsDecodeBytes : Prop :=
  ∀ (bs : List Byte) (s : State),
    match decodeBytes s.cfg.revFilter bs with
    | .ok out => ∃ v0 v1, execAll (decodeBytesCmds bs) s = .next
        { s with decMode := .idle, decCnt := 0, decV0 := v0, decV1 := v1, decEk := .none, decEv := 0, decEl := 0,
                 decOut := s.decOut ++ out.map (fun b => BitVec.ofNat 17 b.toNat),
                 responses := s.responses ++ List.replicate (bs.length + 2) 0 }
    | .err k v l => ∃ v0 v1, execAll (decodeBytesCmds bs) s = .next
        { s with decMode := .error, decCnt := 0, decV0 := v0, decV1 := v1, decEk := k, decEv := BitVec.ofNat 17 v,
                 decEl := BitVec.ofNat 16 l,
                 decOut := s.decOut ++ (goodTriplets (filterBytes s.cfg.revFilter bs)).flatMap
                   (fun u => [BitVec.ofNat 17 (u / 256), BitVec.ofNat 17 (u % 256)]),
                 responses := s.responses
                   ++ List.replicate (responsesBeforeFailure s.cfg.revFilter bs) 0 ++ [errorWord k.code.toNat v l]
                   ++ List.replicate (bs.length + 1 - responsesBeforeFailure s.cfg.revFilter bs) 5 }

/-- DECODE_U16 from any state, as DECODE_BYTES, with decodeU16 and wide beats (R123(e)). The value and the limit of CONTRACT are
the spec's own choice (R109, U4, D7; log 8). -/
def Obligations.DecodeU16SessionIsDecodeU16 : Prop :=
  ∀ (bs : List Byte) (s : State),
    match decodeU16 s.cfg.revFilter bs with
    | .ok out => ∃ v0 v1, execAll (decodeU16Cmds bs) s = .next
        { s with decMode := .idle, decCnt := 0, decV0 := v0, decV1 := v1, decEk := .none, decEv := 0, decEl := 0,
                 decOut := s.decOut ++ out.map (fun w => BitVec.ofNat 17 (65536 + w.toNat)),
                 responses := s.responses ++ List.replicate (bs.length + 2) 0 }
    | .err k v l => ∃ v0 v1, execAll (decodeU16Cmds bs) s = .next
        { s with decMode := .error, decCnt := 0, decV0 := v0, decV1 := v1, decEk := k, decEv := BitVec.ofNat 17 v,
                 decEl := BitVec.ofNat 16 l,
                 decOut := s.decOut ++ (goodTriplets (filterBytes s.cfg.revFilter bs)).map
                   (fun u => BitVec.ofNat 17 (65536 + u)),
                 responses := s.responses
                   ++ List.replicate (responsesBeforeFailure s.cfg.revFilter bs) 0 ++ [errorWord k.code.toNat v l]
                   ++ List.replicate (bs.length + 1 - responsesBeforeFailure s.cfg.revFilter bs) 5 }

/-- Decoding what the encoder emits gives the bytes back, under either reverse filter (R124). -/
def Obligations.DecodeBytesOfEncodeBytes : Prop :=
  ∀ (f : RevFilter) (bs : List Byte), decodeBytes f (encodeBytes bs) = .ok bs

/-- Decoding what the 16-bit encoder emits gives the values back, under either reverse filter (R126). -/
def Obligations.DecodeU16OfEncodeU16 : Prop :=
  ∀ (f : RevFilter) (ws : List Value16), decodeU16 f (encodeU16 ws) = .ok ws

/-- A value 0..40 is the byte that its one symbol decodes to, and that byte encodes to the symbol, under either reverse filter
(R127). -/
def Obligations.SingleSymbolCompleteness : Prop :=
  ∀ (f : RevFilter) (v : Digit),
    decodeBytes f [fwd v] = .ok [BitVec.ofNat 8 v.val] ∧ encodeBytes [BitVec.ofNat 8 v.val] = [fwd v]

/-- Noise bytes, those the filter rejects, put anywhere in what the encoder emits change nothing of what is decoded (R125). -/
def Obligations.NoiseDoesNotChangeWhatIsDecoded : Prop :=
  ∀ (f : RevFilter) (noisy : List Byte),
    (∀ bs, noisy.filter (fun b => (rev f b).isSome) = encodeBytes bs → decodeBytes f noisy = .ok bs) ∧
    (∀ ws, noisy.filter (fun b => (rev f b).isSome) = encodeU16 ws → decodeU16 f noisy = .ok ws)

/-- The decoder accepts exactly the encoder's image: a stream decodes to B exactly when its filtered values are those of what
the encoder emits for B (R115). -/
def Obligations.DecoderAcceptsExactlyTheEncodersImage : Prop :=
  ∀ (f : RevFilter) (stream : List Byte),
    (∀ bs, decodeBytes f stream = .ok bs ↔ filterBytes f stream = filterBytes f (encodeBytes bs)) ∧
    (∀ ws, decodeU16 f stream = .ok ws ↔ filterBytes f stream = filterBytes f (encodeU16 ws))

/-- How many symbols the encoders emit (R98). -/
def Obligations.EncodedLength : Prop :=
  (∀ bs : List Byte, (encodeBytes bs).length = 3 * (bs.length / 2) +
    (if bs.length % 2 = 1 then (if (bs.getLastD 0).toNat < 41 then 1 else 2) else 0)) ∧
  (∀ ws : List Value16, (encodeU16 ws).length = 3 * ws.length)

/-- Empty input encodes and decodes to nothing, and input that is all noise decodes to nothing (R128). -/
def Obligations.NoiseAloneDecodesToNothing : Prop :=
  encodeBytes [] = [] ∧ encodeU16 [] = [] ∧
  ∀ (f : RevFilter) (bs : List Byte), (∀ b ∈ bs, rev f b = none) →
    decodeBytes f bs = .ok [] ∧ decodeU16 f bs = .ok []

/-- The text of a command, its operand in hexadecimal, assembles to the command (R74, R75). -/
def Obligations.TextOfACommandAssembles : Prop :=
  ∀ i : Instr, assembleLine (cmdText i) = .ok [i]
end

