-- ==== Sys2Proof/Laws/Decode.lean ====
section
/-! SUPPORT. The fields of a word that `cmdWord` and `byteOpd` build, once for every proof about the encoding. -/

namespace Sys2Proof

@[simp] theorem opField_cmdWord (op : BitVec 4) (opd : Value16) : opField (cmdWord op opd) = op := by
  ext j hj
  simp only [opField, cmdWord, BitVec.getElem_extractLsb', BitVec.getLsbD_append]
  have h1 : ¬ 28 + j < 16 := by omega
  have h2 : ¬ 28 + j - 16 < 12 := by omega
  have h3 : 28 + j - 16 - 12 = j := by omega
  simp [h1, h2, h3, BitVec.getLsbD_eq_getElem hj]

@[simp] theorem rsvField_cmdWord (op : BitVec 4) (opd : Value16) : rsvField (cmdWord op opd) = 0 := by
  ext j hj
  simp only [rsvField, cmdWord, BitVec.getElem_extractLsb', BitVec.getLsbD_append]
  have h1 : ¬ 16 + j < 16 := by omega
  simp [h1]
  intro h; omega

@[simp] theorem opdField_cmdWord (op : BitVec 4) (opd : Value16) : opdField (cmdWord op opd) = opd := by
  ext j hj
  simp only [opdField, cmdWord, BitVec.getElem_extractLsb', BitVec.getLsbD_append]
  simp [hj]

@[simp] theorem opdByte_cmdWord (op : BitVec 4) (b : Byte) : opdByte (cmdWord op (byteOpd b)) = b := by
  ext j hj
  simp only [opdByte, cmdWord, byteOpd, BitVec.getElem_extractLsb', BitVec.getLsbD_append]
  have h1 : j < 16 := by omega
  simp [h1, hj]

@[simp] theorem opdHigh_cmdWord (op : BitVec 4) (b : Byte) : opdHigh (cmdWord op (byteOpd b)) = 0 := by
  ext j hj
  simp only [opdHigh, cmdWord, byteOpd, BitVec.getElem_extractLsb', BitVec.getLsbD_append]
  have h1 : 8 + j < 16 := by omega
  have h2 : ¬ 8 + j < 8 := by omega
  simp [h1, h2]

/-- A command word as a number: its opcode in bits 31:28 and its operand in bits 15:0 (30_encoding.md R57). -/
theorem cmdWord_toNat (op : BitVec 4) (opd : Value16) : (cmdWord op opd).toNat = 2 ^ 28 * op.toNat + opd.toNat := by
  have h1 := op.isLt
  have h2 := opd.isLt
  simp only [cmdWord, BitVec.toNat_append]
  rw [← Nat.shiftLeft_add_eq_or_of_lt (by simpa using h2), ← Nat.shiftLeft_add_eq_or_of_lt (by decide)]
  simp [Nat.shiftLeft_eq]
  omega

@[simp] theorem byteOpd_toNat (b : Byte) : (byteOpd b).toNat = b.toNat := by
  simp only [byteOpd, BitVec.toNat_append]
  simp

end Sys2Proof
end

