-- ==== Sys2Proof/Laws/State.lean ====
section
/-! SUPPORT. One lemma per field per named write of State, so that no later proof unfolds a record update. -/

namespace Sys2Proof.Machine

/-! `State.respond` -/

section
variable (s : State) (r : Response)

@[simp] theorem State.respond_encMode : (s.respond r).encMode = s.encMode := rfl
@[simp] theorem State.respond_encHv : (s.respond r).encHv = s.encHv := rfl
@[simp] theorem State.respond_encHb : (s.respond r).encHb = s.encHb := rfl
@[simp] theorem State.respond_decMode : (s.respond r).decMode = s.decMode := rfl
@[simp] theorem State.respond_decCnt : (s.respond r).decCnt = s.decCnt := rfl
@[simp] theorem State.respond_decV0 : (s.respond r).decV0 = s.decV0 := rfl
@[simp] theorem State.respond_decV1 : (s.respond r).decV1 = s.decV1 := rfl
@[simp] theorem State.respond_decEk : (s.respond r).decEk = s.decEk := rfl
@[simp] theorem State.respond_decEv : (s.respond r).decEv = s.decEv := rfl
@[simp] theorem State.respond_decEl : (s.respond r).decEl = s.decEl := rfl
@[simp] theorem State.respond_encOut : (s.respond r).encOut = s.encOut := rfl
@[simp] theorem State.respond_decOut : (s.respond r).decOut = s.decOut := rfl
@[simp] theorem State.respond_issued : (s.respond r).issued = s.issued := rfl
@[simp] theorem State.respond_lastEnd : (s.respond r).lastEnd = s.lastEnd := rfl
@[simp] theorem State.respond_responses : (s.respond r).responses = s.responses ++ [r.word] := rfl
@[simp] theorem State.respond_encPopped : (s.respond r).encPopped = s.encPopped := rfl
@[simp] theorem State.respond_decPopped : (s.respond r).decPopped = s.decPopped := rfl
@[simp] theorem State.respond_inbox : (s.respond r).inbox = s.inbox := rfl
@[simp] theorem State.respond_cfg : (s.respond r).cfg = s.cfg := rfl

end

/-! `State.emitEnc` -/

section
variable (s : State) (bs : List Byte)

@[simp] theorem State.emitEnc_encMode : (s.emitEnc bs).encMode = s.encMode := rfl
@[simp] theorem State.emitEnc_encHv : (s.emitEnc bs).encHv = s.encHv := rfl
@[simp] theorem State.emitEnc_encHb : (s.emitEnc bs).encHb = s.encHb := rfl
@[simp] theorem State.emitEnc_decMode : (s.emitEnc bs).decMode = s.decMode := rfl
@[simp] theorem State.emitEnc_decCnt : (s.emitEnc bs).decCnt = s.decCnt := rfl
@[simp] theorem State.emitEnc_decV0 : (s.emitEnc bs).decV0 = s.decV0 := rfl
@[simp] theorem State.emitEnc_decV1 : (s.emitEnc bs).decV1 = s.decV1 := rfl
@[simp] theorem State.emitEnc_decEk : (s.emitEnc bs).decEk = s.decEk := rfl
@[simp] theorem State.emitEnc_decEv : (s.emitEnc bs).decEv = s.decEv := rfl
@[simp] theorem State.emitEnc_decEl : (s.emitEnc bs).decEl = s.decEl := rfl
@[simp] theorem State.emitEnc_encOut : (s.emitEnc bs).encOut = s.encOut ++ bs := rfl
@[simp] theorem State.emitEnc_decOut : (s.emitEnc bs).decOut = s.decOut := rfl
@[simp] theorem State.emitEnc_issued : (s.emitEnc bs).issued = s.issued := rfl
@[simp] theorem State.emitEnc_lastEnd : (s.emitEnc bs).lastEnd = s.lastEnd := rfl
@[simp] theorem State.emitEnc_responses : (s.emitEnc bs).responses = s.responses := rfl
@[simp] theorem State.emitEnc_encPopped : (s.emitEnc bs).encPopped = s.encPopped := rfl
@[simp] theorem State.emitEnc_decPopped : (s.emitEnc bs).decPopped = s.decPopped := rfl
@[simp] theorem State.emitEnc_inbox : (s.emitEnc bs).inbox = s.inbox := rfl
@[simp] theorem State.emitEnc_cfg : (s.emitEnc bs).cfg = s.cfg := rfl

end

/-! `State.emitDec` -/

section
variable (s : State) (bs : List DecBeat)

@[simp] theorem State.emitDec_encMode : (s.emitDec bs).encMode = s.encMode := rfl
@[simp] theorem State.emitDec_encHv : (s.emitDec bs).encHv = s.encHv := rfl
@[simp] theorem State.emitDec_encHb : (s.emitDec bs).encHb = s.encHb := rfl
@[simp] theorem State.emitDec_decMode : (s.emitDec bs).decMode = s.decMode := rfl
@[simp] theorem State.emitDec_decCnt : (s.emitDec bs).decCnt = s.decCnt := rfl
@[simp] theorem State.emitDec_decV0 : (s.emitDec bs).decV0 = s.decV0 := rfl
@[simp] theorem State.emitDec_decV1 : (s.emitDec bs).decV1 = s.decV1 := rfl
@[simp] theorem State.emitDec_decEk : (s.emitDec bs).decEk = s.decEk := rfl
@[simp] theorem State.emitDec_decEv : (s.emitDec bs).decEv = s.decEv := rfl
@[simp] theorem State.emitDec_decEl : (s.emitDec bs).decEl = s.decEl := rfl
@[simp] theorem State.emitDec_encOut : (s.emitDec bs).encOut = s.encOut := rfl
@[simp] theorem State.emitDec_decOut : (s.emitDec bs).decOut = s.decOut ++ bs := rfl
@[simp] theorem State.emitDec_issued : (s.emitDec bs).issued = s.issued := rfl
@[simp] theorem State.emitDec_lastEnd : (s.emitDec bs).lastEnd = s.lastEnd := rfl
@[simp] theorem State.emitDec_responses : (s.emitDec bs).responses = s.responses := rfl
@[simp] theorem State.emitDec_encPopped : (s.emitDec bs).encPopped = s.encPopped := rfl
@[simp] theorem State.emitDec_decPopped : (s.emitDec bs).decPopped = s.decPopped := rfl
@[simp] theorem State.emitDec_inbox : (s.emitDec bs).inbox = s.inbox := rfl
@[simp] theorem State.emitDec_cfg : (s.emitDec bs).cfg = s.cfg := rfl

end

/-! `State.openEnc` -/

section
variable (s : State) (m : EncMode)

@[simp] theorem State.openEnc_encMode : (s.openEnc m).encMode = m := rfl
@[simp] theorem State.openEnc_encHv : (s.openEnc m).encHv = false := rfl
@[simp] theorem State.openEnc_encHb : (s.openEnc m).encHb = 0 := rfl
@[simp] theorem State.openEnc_decMode : (s.openEnc m).decMode = s.decMode := rfl
@[simp] theorem State.openEnc_decCnt : (s.openEnc m).decCnt = s.decCnt := rfl
@[simp] theorem State.openEnc_decV0 : (s.openEnc m).decV0 = s.decV0 := rfl
@[simp] theorem State.openEnc_decV1 : (s.openEnc m).decV1 = s.decV1 := rfl
@[simp] theorem State.openEnc_decEk : (s.openEnc m).decEk = s.decEk := rfl
@[simp] theorem State.openEnc_decEv : (s.openEnc m).decEv = s.decEv := rfl
@[simp] theorem State.openEnc_decEl : (s.openEnc m).decEl = s.decEl := rfl
@[simp] theorem State.openEnc_encOut : (s.openEnc m).encOut = s.encOut := rfl
@[simp] theorem State.openEnc_decOut : (s.openEnc m).decOut = s.decOut := rfl
@[simp] theorem State.openEnc_issued : (s.openEnc m).issued = s.issued := rfl
@[simp] theorem State.openEnc_lastEnd : (s.openEnc m).lastEnd = s.lastEnd := rfl
@[simp] theorem State.openEnc_responses : (s.openEnc m).responses = s.responses := rfl
@[simp] theorem State.openEnc_encPopped : (s.openEnc m).encPopped = s.encPopped := rfl
@[simp] theorem State.openEnc_decPopped : (s.openEnc m).decPopped = s.decPopped := rfl
@[simp] theorem State.openEnc_inbox : (s.openEnc m).inbox = s.inbox := rfl
@[simp] theorem State.openEnc_cfg : (s.openEnc m).cfg = s.cfg := rfl

end

/-! `State.holdByte` -/

section
variable (s : State) (b : Byte)

@[simp] theorem State.holdByte_encMode : (s.holdByte b).encMode = s.encMode := rfl
@[simp] theorem State.holdByte_encHv : (s.holdByte b).encHv = true := rfl
@[simp] theorem State.holdByte_encHb : (s.holdByte b).encHb = b := rfl
@[simp] theorem State.holdByte_decMode : (s.holdByte b).decMode = s.decMode := rfl
@[simp] theorem State.holdByte_decCnt : (s.holdByte b).decCnt = s.decCnt := rfl
@[simp] theorem State.holdByte_decV0 : (s.holdByte b).decV0 = s.decV0 := rfl
@[simp] theorem State.holdByte_decV1 : (s.holdByte b).decV1 = s.decV1 := rfl
@[simp] theorem State.holdByte_decEk : (s.holdByte b).decEk = s.decEk := rfl
@[simp] theorem State.holdByte_decEv : (s.holdByte b).decEv = s.decEv := rfl
@[simp] theorem State.holdByte_decEl : (s.holdByte b).decEl = s.decEl := rfl
@[simp] theorem State.holdByte_encOut : (s.holdByte b).encOut = s.encOut := rfl
@[simp] theorem State.holdByte_decOut : (s.holdByte b).decOut = s.decOut := rfl
@[simp] theorem State.holdByte_issued : (s.holdByte b).issued = s.issued := rfl
@[simp] theorem State.holdByte_lastEnd : (s.holdByte b).lastEnd = s.lastEnd := rfl
@[simp] theorem State.holdByte_responses : (s.holdByte b).responses = s.responses := rfl
@[simp] theorem State.holdByte_encPopped : (s.holdByte b).encPopped = s.encPopped := rfl
@[simp] theorem State.holdByte_decPopped : (s.holdByte b).decPopped = s.decPopped := rfl
@[simp] theorem State.holdByte_inbox : (s.holdByte b).inbox = s.inbox := rfl
@[simp] theorem State.holdByte_cfg : (s.holdByte b).cfg = s.cfg := rfl

end

/-! `State.releaseByte` -/

section
variable (s : State)

@[simp] theorem State.releaseByte_encMode : (s.releaseByte).encMode = s.encMode := rfl
@[simp] theorem State.releaseByte_encHv : (s.releaseByte).encHv = false := rfl
@[simp] theorem State.releaseByte_encHb : (s.releaseByte).encHb = s.encHb := rfl
@[simp] theorem State.releaseByte_decMode : (s.releaseByte).decMode = s.decMode := rfl
@[simp] theorem State.releaseByte_decCnt : (s.releaseByte).decCnt = s.decCnt := rfl
@[simp] theorem State.releaseByte_decV0 : (s.releaseByte).decV0 = s.decV0 := rfl
@[simp] theorem State.releaseByte_decV1 : (s.releaseByte).decV1 = s.decV1 := rfl
@[simp] theorem State.releaseByte_decEk : (s.releaseByte).decEk = s.decEk := rfl
@[simp] theorem State.releaseByte_decEv : (s.releaseByte).decEv = s.decEv := rfl
@[simp] theorem State.releaseByte_decEl : (s.releaseByte).decEl = s.decEl := rfl
@[simp] theorem State.releaseByte_encOut : (s.releaseByte).encOut = s.encOut := rfl
@[simp] theorem State.releaseByte_decOut : (s.releaseByte).decOut = s.decOut := rfl
@[simp] theorem State.releaseByte_issued : (s.releaseByte).issued = s.issued := rfl
@[simp] theorem State.releaseByte_lastEnd : (s.releaseByte).lastEnd = s.lastEnd := rfl
@[simp] theorem State.releaseByte_responses : (s.releaseByte).responses = s.responses := rfl
@[simp] theorem State.releaseByte_encPopped : (s.releaseByte).encPopped = s.encPopped := rfl
@[simp] theorem State.releaseByte_decPopped : (s.releaseByte).decPopped = s.decPopped := rfl
@[simp] theorem State.releaseByte_inbox : (s.releaseByte).inbox = s.inbox := rfl
@[simp] theorem State.releaseByte_cfg : (s.releaseByte).cfg = s.cfg := rfl

end

/-! `State.closeEnc` -/

section
variable (s : State)

@[simp] theorem State.closeEnc_encMode : (s.closeEnc).encMode = .idle := rfl
@[simp] theorem State.closeEnc_encHv : (s.closeEnc).encHv = false := rfl
@[simp] theorem State.closeEnc_encHb : (s.closeEnc).encHb = s.encHb := rfl
@[simp] theorem State.closeEnc_decMode : (s.closeEnc).decMode = s.decMode := rfl
@[simp] theorem State.closeEnc_decCnt : (s.closeEnc).decCnt = s.decCnt := rfl
@[simp] theorem State.closeEnc_decV0 : (s.closeEnc).decV0 = s.decV0 := rfl
@[simp] theorem State.closeEnc_decV1 : (s.closeEnc).decV1 = s.decV1 := rfl
@[simp] theorem State.closeEnc_decEk : (s.closeEnc).decEk = s.decEk := rfl
@[simp] theorem State.closeEnc_decEv : (s.closeEnc).decEv = s.decEv := rfl
@[simp] theorem State.closeEnc_decEl : (s.closeEnc).decEl = s.decEl := rfl
@[simp] theorem State.closeEnc_encOut : (s.closeEnc).encOut = s.encOut := rfl
@[simp] theorem State.closeEnc_decOut : (s.closeEnc).decOut = s.decOut := rfl
@[simp] theorem State.closeEnc_issued : (s.closeEnc).issued = s.issued := rfl
@[simp] theorem State.closeEnc_lastEnd : (s.closeEnc).lastEnd = s.lastEnd := rfl
@[simp] theorem State.closeEnc_responses : (s.closeEnc).responses = s.responses := rfl
@[simp] theorem State.closeEnc_encPopped : (s.closeEnc).encPopped = s.encPopped := rfl
@[simp] theorem State.closeEnc_decPopped : (s.closeEnc).decPopped = s.decPopped := rfl
@[simp] theorem State.closeEnc_inbox : (s.closeEnc).inbox = s.inbox := rfl
@[simp] theorem State.closeEnc_cfg : (s.closeEnc).cfg = s.cfg := rfl

end

/-! `State.bufferFirst` -/

section
variable (s : State) (x : Value6)

@[simp] theorem State.bufferFirst_encMode : (s.bufferFirst x).encMode = s.encMode := rfl
@[simp] theorem State.bufferFirst_encHv : (s.bufferFirst x).encHv = s.encHv := rfl
@[simp] theorem State.bufferFirst_encHb : (s.bufferFirst x).encHb = s.encHb := rfl
@[simp] theorem State.bufferFirst_decMode : (s.bufferFirst x).decMode = s.decMode := rfl
@[simp] theorem State.bufferFirst_decCnt : (s.bufferFirst x).decCnt = 1 := rfl
@[simp] theorem State.bufferFirst_decV0 : (s.bufferFirst x).decV0 = x := rfl
@[simp] theorem State.bufferFirst_decV1 : (s.bufferFirst x).decV1 = s.decV1 := rfl
@[simp] theorem State.bufferFirst_decEk : (s.bufferFirst x).decEk = s.decEk := rfl
@[simp] theorem State.bufferFirst_decEv : (s.bufferFirst x).decEv = s.decEv := rfl
@[simp] theorem State.bufferFirst_decEl : (s.bufferFirst x).decEl = s.decEl := rfl
@[simp] theorem State.bufferFirst_encOut : (s.bufferFirst x).encOut = s.encOut := rfl
@[simp] theorem State.bufferFirst_decOut : (s.bufferFirst x).decOut = s.decOut := rfl
@[simp] theorem State.bufferFirst_issued : (s.bufferFirst x).issued = s.issued := rfl
@[simp] theorem State.bufferFirst_lastEnd : (s.bufferFirst x).lastEnd = s.lastEnd := rfl
@[simp] theorem State.bufferFirst_responses : (s.bufferFirst x).responses = s.responses := rfl
@[simp] theorem State.bufferFirst_encPopped : (s.bufferFirst x).encPopped = s.encPopped := rfl
@[simp] theorem State.bufferFirst_decPopped : (s.bufferFirst x).decPopped = s.decPopped := rfl
@[simp] theorem State.bufferFirst_inbox : (s.bufferFirst x).inbox = s.inbox := rfl
@[simp] theorem State.bufferFirst_cfg : (s.bufferFirst x).cfg = s.cfg := rfl

end

/-! `State.bufferSecond` -/

section
variable (s : State) (x : Value6)

@[simp] theorem State.bufferSecond_encMode : (s.bufferSecond x).encMode = s.encMode := rfl
@[simp] theorem State.bufferSecond_encHv : (s.bufferSecond x).encHv = s.encHv := rfl
@[simp] theorem State.bufferSecond_encHb : (s.bufferSecond x).encHb = s.encHb := rfl
@[simp] theorem State.bufferSecond_decMode : (s.bufferSecond x).decMode = s.decMode := rfl
@[simp] theorem State.bufferSecond_decCnt : (s.bufferSecond x).decCnt = 2 := rfl
@[simp] theorem State.bufferSecond_decV0 : (s.bufferSecond x).decV0 = s.decV0 := rfl
@[simp] theorem State.bufferSecond_decV1 : (s.bufferSecond x).decV1 = x := rfl
@[simp] theorem State.bufferSecond_decEk : (s.bufferSecond x).decEk = s.decEk := rfl
@[simp] theorem State.bufferSecond_decEv : (s.bufferSecond x).decEv = s.decEv := rfl
@[simp] theorem State.bufferSecond_decEl : (s.bufferSecond x).decEl = s.decEl := rfl
@[simp] theorem State.bufferSecond_encOut : (s.bufferSecond x).encOut = s.encOut := rfl
@[simp] theorem State.bufferSecond_decOut : (s.bufferSecond x).decOut = s.decOut := rfl
@[simp] theorem State.bufferSecond_issued : (s.bufferSecond x).issued = s.issued := rfl
@[simp] theorem State.bufferSecond_lastEnd : (s.bufferSecond x).lastEnd = s.lastEnd := rfl
@[simp] theorem State.bufferSecond_responses : (s.bufferSecond x).responses = s.responses := rfl
@[simp] theorem State.bufferSecond_encPopped : (s.bufferSecond x).encPopped = s.encPopped := rfl
@[simp] theorem State.bufferSecond_decPopped : (s.bufferSecond x).decPopped = s.decPopped := rfl
@[simp] theorem State.bufferSecond_inbox : (s.bufferSecond x).inbox = s.inbox := rfl
@[simp] theorem State.bufferSecond_cfg : (s.bufferSecond x).cfg = s.cfg := rfl

end

/-! `State.clearGroup` -/

section
variable (s : State)

@[simp] theorem State.clearGroup_encMode : (s.clearGroup).encMode = s.encMode := rfl
@[simp] theorem State.clearGroup_encHv : (s.clearGroup).encHv = s.encHv := rfl
@[simp] theorem State.clearGroup_encHb : (s.clearGroup).encHb = s.encHb := rfl
@[simp] theorem State.clearGroup_decMode : (s.clearGroup).decMode = s.decMode := rfl
@[simp] theorem State.clearGroup_decCnt : (s.clearGroup).decCnt = 0 := rfl
@[simp] theorem State.clearGroup_decV0 : (s.clearGroup).decV0 = s.decV0 := rfl
@[simp] theorem State.clearGroup_decV1 : (s.clearGroup).decV1 = s.decV1 := rfl
@[simp] theorem State.clearGroup_decEk : (s.clearGroup).decEk = s.decEk := rfl
@[simp] theorem State.clearGroup_decEv : (s.clearGroup).decEv = s.decEv := rfl
@[simp] theorem State.clearGroup_decEl : (s.clearGroup).decEl = s.decEl := rfl
@[simp] theorem State.clearGroup_encOut : (s.clearGroup).encOut = s.encOut := rfl
@[simp] theorem State.clearGroup_decOut : (s.clearGroup).decOut = s.decOut := rfl
@[simp] theorem State.clearGroup_issued : (s.clearGroup).issued = s.issued := rfl
@[simp] theorem State.clearGroup_lastEnd : (s.clearGroup).lastEnd = s.lastEnd := rfl
@[simp] theorem State.clearGroup_responses : (s.clearGroup).responses = s.responses := rfl
@[simp] theorem State.clearGroup_encPopped : (s.clearGroup).encPopped = s.encPopped := rfl
@[simp] theorem State.clearGroup_decPopped : (s.clearGroup).decPopped = s.decPopped := rfl
@[simp] theorem State.clearGroup_inbox : (s.clearGroup).inbox = s.inbox := rfl
@[simp] theorem State.clearGroup_cfg : (s.clearGroup).cfg = s.cfg := rfl

end

/-! `State.closeDec` -/

section
variable (s : State)

@[simp] theorem State.closeDec_encMode : (s.closeDec).encMode = s.encMode := rfl
@[simp] theorem State.closeDec_encHv : (s.closeDec).encHv = s.encHv := rfl
@[simp] theorem State.closeDec_encHb : (s.closeDec).encHb = s.encHb := rfl
@[simp] theorem State.closeDec_decMode : (s.closeDec).decMode = .idle := rfl
@[simp] theorem State.closeDec_decCnt : (s.closeDec).decCnt = 0 := rfl
@[simp] theorem State.closeDec_decV0 : (s.closeDec).decV0 = s.decV0 := rfl
@[simp] theorem State.closeDec_decV1 : (s.closeDec).decV1 = s.decV1 := rfl
@[simp] theorem State.closeDec_decEk : (s.closeDec).decEk = s.decEk := rfl
@[simp] theorem State.closeDec_decEv : (s.closeDec).decEv = s.decEv := rfl
@[simp] theorem State.closeDec_decEl : (s.closeDec).decEl = s.decEl := rfl
@[simp] theorem State.closeDec_encOut : (s.closeDec).encOut = s.encOut := rfl
@[simp] theorem State.closeDec_decOut : (s.closeDec).decOut = s.decOut := rfl
@[simp] theorem State.closeDec_issued : (s.closeDec).issued = s.issued := rfl
@[simp] theorem State.closeDec_lastEnd : (s.closeDec).lastEnd = s.lastEnd := rfl
@[simp] theorem State.closeDec_responses : (s.closeDec).responses = s.responses := rfl
@[simp] theorem State.closeDec_encPopped : (s.closeDec).encPopped = s.encPopped := rfl
@[simp] theorem State.closeDec_decPopped : (s.closeDec).decPopped = s.decPopped := rfl
@[simp] theorem State.closeDec_inbox : (s.closeDec).inbox = s.inbox := rfl
@[simp] theorem State.closeDec_cfg : (s.closeDec).cfg = s.cfg := rfl

end

/-! `State.enterError` -/

section
variable (s : State) (k : ErrKind) (v l : Nat)

@[simp] theorem State.enterError_encMode : (s.enterError k v l).encMode = s.encMode := rfl
@[simp] theorem State.enterError_encHv : (s.enterError k v l).encHv = s.encHv := rfl
@[simp] theorem State.enterError_encHb : (s.enterError k v l).encHb = s.encHb := rfl
@[simp] theorem State.enterError_decMode : (s.enterError k v l).decMode = .error := rfl
@[simp] theorem State.enterError_decCnt : (s.enterError k v l).decCnt = 0 := rfl
@[simp] theorem State.enterError_decV0 : (s.enterError k v l).decV0 = s.decV0 := rfl
@[simp] theorem State.enterError_decV1 : (s.enterError k v l).decV1 = s.decV1 := rfl
@[simp] theorem State.enterError_decEk : (s.enterError k v l).decEk = k := rfl
@[simp] theorem State.enterError_decEv : (s.enterError k v l).decEv = BitVec.ofNat 17 v := rfl
@[simp] theorem State.enterError_decEl : (s.enterError k v l).decEl = BitVec.ofNat 16 l := rfl
@[simp] theorem State.enterError_encOut : (s.enterError k v l).encOut = s.encOut := rfl
@[simp] theorem State.enterError_decOut : (s.enterError k v l).decOut = s.decOut := rfl
@[simp] theorem State.enterError_issued : (s.enterError k v l).issued = s.issued := rfl
@[simp] theorem State.enterError_lastEnd : (s.enterError k v l).lastEnd = s.lastEnd := rfl
@[simp] theorem State.enterError_responses : (s.enterError k v l).responses = s.responses := rfl
@[simp] theorem State.enterError_encPopped : (s.enterError k v l).encPopped = s.encPopped := rfl
@[simp] theorem State.enterError_decPopped : (s.enterError k v l).decPopped = s.decPopped := rfl
@[simp] theorem State.enterError_inbox : (s.enterError k v l).inbox = s.inbox := rfl
@[simp] theorem State.enterError_cfg : (s.enterError k v l).cfg = s.cfg := rfl

end

/-! `State.leaveError` -/

section
variable (s : State) (m : DecMode)

@[simp] theorem State.leaveError_encMode : (s.leaveError m).encMode = s.encMode := rfl
@[simp] theorem State.leaveError_encHv : (s.leaveError m).encHv = s.encHv := rfl
@[simp] theorem State.leaveError_encHb : (s.leaveError m).encHb = s.encHb := rfl
@[simp] theorem State.leaveError_decMode : (s.leaveError m).decMode = m := rfl
@[simp] theorem State.leaveError_decCnt : (s.leaveError m).decCnt = 0 := rfl
@[simp] theorem State.leaveError_decV0 : (s.leaveError m).decV0 = s.decV0 := rfl
@[simp] theorem State.leaveError_decV1 : (s.leaveError m).decV1 = s.decV1 := rfl
@[simp] theorem State.leaveError_decEk : (s.leaveError m).decEk = .none := rfl
@[simp] theorem State.leaveError_decEv : (s.leaveError m).decEv = 0 := rfl
@[simp] theorem State.leaveError_decEl : (s.leaveError m).decEl = 0 := rfl
@[simp] theorem State.leaveError_encOut : (s.leaveError m).encOut = s.encOut := rfl
@[simp] theorem State.leaveError_decOut : (s.leaveError m).decOut = s.decOut := rfl
@[simp] theorem State.leaveError_issued : (s.leaveError m).issued = s.issued := rfl
@[simp] theorem State.leaveError_lastEnd : (s.leaveError m).lastEnd = s.lastEnd := rfl
@[simp] theorem State.leaveError_responses : (s.leaveError m).responses = s.responses := rfl
@[simp] theorem State.leaveError_encPopped : (s.leaveError m).encPopped = s.encPopped := rfl
@[simp] theorem State.leaveError_decPopped : (s.leaveError m).decPopped = s.decPopped := rfl
@[simp] theorem State.leaveError_inbox : (s.leaveError m).inbox = s.inbox := rfl
@[simp] theorem State.leaveError_cfg : (s.leaveError m).cfg = s.cfg := rfl

end

/-! `State.openDec` -/

section
variable (s : State) (m : DecMode)

@[simp] theorem State.openDec_encMode : (s.openDec m).encMode = s.encMode := rfl
@[simp] theorem State.openDec_encHv : (s.openDec m).encHv = s.encHv := rfl
@[simp] theorem State.openDec_encHb : (s.openDec m).encHb = s.encHb := rfl
@[simp] theorem State.openDec_decMode : (s.openDec m).decMode = m := rfl
@[simp] theorem State.openDec_decCnt : (s.openDec m).decCnt = 0 := rfl
@[simp] theorem State.openDec_decV0 : (s.openDec m).decV0 = 0 := rfl
@[simp] theorem State.openDec_decV1 : (s.openDec m).decV1 = 0 := rfl
@[simp] theorem State.openDec_decEk : (s.openDec m).decEk = .none := rfl
@[simp] theorem State.openDec_decEv : (s.openDec m).decEv = 0 := rfl
@[simp] theorem State.openDec_decEl : (s.openDec m).decEl = 0 := rfl
@[simp] theorem State.openDec_encOut : (s.openDec m).encOut = s.encOut := rfl
@[simp] theorem State.openDec_decOut : (s.openDec m).decOut = s.decOut := rfl
@[simp] theorem State.openDec_issued : (s.openDec m).issued = s.issued := rfl
@[simp] theorem State.openDec_lastEnd : (s.openDec m).lastEnd = s.lastEnd := rfl
@[simp] theorem State.openDec_responses : (s.openDec m).responses = s.responses := rfl
@[simp] theorem State.openDec_encPopped : (s.openDec m).encPopped = s.encPopped := rfl
@[simp] theorem State.openDec_decPopped : (s.openDec m).decPopped = s.decPopped := rfl
@[simp] theorem State.openDec_inbox : (s.openDec m).inbox = s.inbox := rfl
@[simp] theorem State.openDec_cfg : (s.openDec m).cfg = s.cfg := rfl

end

/-! `State.issueCommand` -/

section
variable (s : State) (w : CmdWord)

@[simp] theorem State.issueCommand_encMode : (s.issueCommand w).encMode = s.encMode := rfl
@[simp] theorem State.issueCommand_encHv : (s.issueCommand w).encHv = s.encHv := rfl
@[simp] theorem State.issueCommand_encHb : (s.issueCommand w).encHb = s.encHb := rfl
@[simp] theorem State.issueCommand_decMode : (s.issueCommand w).decMode = s.decMode := rfl
@[simp] theorem State.issueCommand_decCnt : (s.issueCommand w).decCnt = s.decCnt := rfl
@[simp] theorem State.issueCommand_decV0 : (s.issueCommand w).decV0 = s.decV0 := rfl
@[simp] theorem State.issueCommand_decV1 : (s.issueCommand w).decV1 = s.decV1 := rfl
@[simp] theorem State.issueCommand_decEk : (s.issueCommand w).decEk = s.decEk := rfl
@[simp] theorem State.issueCommand_decEv : (s.issueCommand w).decEv = s.decEv := rfl
@[simp] theorem State.issueCommand_decEl : (s.issueCommand w).decEl = s.decEl := rfl
@[simp] theorem State.issueCommand_encOut : (s.issueCommand w).encOut = s.encOut := rfl
@[simp] theorem State.issueCommand_decOut : (s.issueCommand w).decOut = s.decOut := rfl
@[simp] theorem State.issueCommand_issued : (s.issueCommand w).issued = s.issued ++ [w] := rfl
@[simp] theorem State.issueCommand_lastEnd : (s.issueCommand w).lastEnd = s.lastEnd := rfl
@[simp] theorem State.issueCommand_responses : (s.issueCommand w).responses = s.responses := rfl
@[simp] theorem State.issueCommand_encPopped : (s.issueCommand w).encPopped = s.encPopped := rfl
@[simp] theorem State.issueCommand_decPopped : (s.issueCommand w).decPopped = s.decPopped := rfl
@[simp] theorem State.issueCommand_inbox : (s.issueCommand w).inbox = s.inbox := rfl
@[simp] theorem State.issueCommand_cfg : (s.issueCommand w).cfg = s.cfg := rfl

end

/-! `State.dropIssued` -/

section
variable (s : State)

@[simp] theorem State.dropIssued_encMode : (s.dropIssued).encMode = s.encMode := rfl
@[simp] theorem State.dropIssued_encHv : (s.dropIssued).encHv = s.encHv := rfl
@[simp] theorem State.dropIssued_encHb : (s.dropIssued).encHb = s.encHb := rfl
@[simp] theorem State.dropIssued_decMode : (s.dropIssued).decMode = s.decMode := rfl
@[simp] theorem State.dropIssued_decCnt : (s.dropIssued).decCnt = s.decCnt := rfl
@[simp] theorem State.dropIssued_decV0 : (s.dropIssued).decV0 = s.decV0 := rfl
@[simp] theorem State.dropIssued_decV1 : (s.dropIssued).decV1 = s.decV1 := rfl
@[simp] theorem State.dropIssued_decEk : (s.dropIssued).decEk = s.decEk := rfl
@[simp] theorem State.dropIssued_decEv : (s.dropIssued).decEv = s.decEv := rfl
@[simp] theorem State.dropIssued_decEl : (s.dropIssued).decEl = s.decEl := rfl
@[simp] theorem State.dropIssued_encOut : (s.dropIssued).encOut = s.encOut := rfl
@[simp] theorem State.dropIssued_decOut : (s.dropIssued).decOut = s.decOut := rfl
@[simp] theorem State.dropIssued_issued : (s.dropIssued).issued = s.issued.tail := rfl
@[simp] theorem State.dropIssued_lastEnd : (s.dropIssued).lastEnd = .answered := rfl
@[simp] theorem State.dropIssued_responses : (s.dropIssued).responses = s.responses := rfl
@[simp] theorem State.dropIssued_encPopped : (s.dropIssued).encPopped = s.encPopped := rfl
@[simp] theorem State.dropIssued_decPopped : (s.dropIssued).decPopped = s.decPopped := rfl
@[simp] theorem State.dropIssued_inbox : (s.dropIssued).inbox = s.inbox := rfl
@[simp] theorem State.dropIssued_cfg : (s.dropIssued).cfg = s.cfg := rfl

end

/-! `State.placeCommand` -/

section
variable (s : State) (w : CmdWord)

@[simp] theorem State.placeCommand_encMode : (s.placeCommand w).encMode = s.encMode := rfl
@[simp] theorem State.placeCommand_encHv : (s.placeCommand w).encHv = s.encHv := rfl
@[simp] theorem State.placeCommand_encHb : (s.placeCommand w).encHb = s.encHb := rfl
@[simp] theorem State.placeCommand_decMode : (s.placeCommand w).decMode = s.decMode := rfl
@[simp] theorem State.placeCommand_decCnt : (s.placeCommand w).decCnt = s.decCnt := rfl
@[simp] theorem State.placeCommand_decV0 : (s.placeCommand w).decV0 = s.decV0 := rfl
@[simp] theorem State.placeCommand_decV1 : (s.placeCommand w).decV1 = s.decV1 := rfl
@[simp] theorem State.placeCommand_decEk : (s.placeCommand w).decEk = s.decEk := rfl
@[simp] theorem State.placeCommand_decEv : (s.placeCommand w).decEv = s.decEv := rfl
@[simp] theorem State.placeCommand_decEl : (s.placeCommand w).decEl = s.decEl := rfl
@[simp] theorem State.placeCommand_encOut : (s.placeCommand w).encOut = s.encOut := rfl
@[simp] theorem State.placeCommand_decOut : (s.placeCommand w).decOut = s.decOut := rfl
@[simp] theorem State.placeCommand_issued : (s.placeCommand w).issued = w :: s.issued := rfl
@[simp] theorem State.placeCommand_lastEnd : (s.placeCommand w).lastEnd = s.lastEnd := rfl
@[simp] theorem State.placeCommand_responses : (s.placeCommand w).responses = s.responses := rfl
@[simp] theorem State.placeCommand_encPopped : (s.placeCommand w).encPopped = s.encPopped := rfl
@[simp] theorem State.placeCommand_decPopped : (s.placeCommand w).decPopped = s.decPopped := rfl
@[simp] theorem State.placeCommand_inbox : (s.placeCommand w).inbox = s.inbox := rfl
@[simp] theorem State.placeCommand_cfg : (s.placeCommand w).cfg = s.cfg := rfl

end

/-! `State.hostReset` -/

section
variable (s : State)

@[simp] theorem State.hostReset_encMode : (s.hostReset).encMode = .idle := rfl
@[simp] theorem State.hostReset_encHv : (s.hostReset).encHv = false := rfl
@[simp] theorem State.hostReset_encHb : (s.hostReset).encHb = 0 := rfl
@[simp] theorem State.hostReset_decMode : (s.hostReset).decMode = .idle := rfl
@[simp] theorem State.hostReset_decCnt : (s.hostReset).decCnt = 0 := rfl
@[simp] theorem State.hostReset_decV0 : (s.hostReset).decV0 = 0 := rfl
@[simp] theorem State.hostReset_decV1 : (s.hostReset).decV1 = 0 := rfl
@[simp] theorem State.hostReset_decEk : (s.hostReset).decEk = .none := rfl
@[simp] theorem State.hostReset_decEv : (s.hostReset).decEv = 0 := rfl
@[simp] theorem State.hostReset_decEl : (s.hostReset).decEl = 0 := rfl
@[simp] theorem State.hostReset_encOut : (s.hostReset).encOut = [] := rfl
@[simp] theorem State.hostReset_decOut : (s.hostReset).decOut = [] := rfl
@[simp] theorem State.hostReset_issued : (s.hostReset).issued = [] := rfl
@[simp] theorem State.hostReset_lastEnd : (s.hostReset).lastEnd = if s.issued.isEmpty then s.lastEnd else .discarded := rfl
@[simp] theorem State.hostReset_responses : (s.hostReset).responses = s.responses := rfl
@[simp] theorem State.hostReset_encPopped : (s.hostReset).encPopped = s.encPopped := rfl
@[simp] theorem State.hostReset_decPopped : (s.hostReset).decPopped = s.decPopped := rfl
@[simp] theorem State.hostReset_inbox : (s.hostReset).inbox = s.inbox := rfl
@[simp] theorem State.hostReset_cfg : (s.hostReset).cfg = s.cfg := rfl

end

end Sys2Proof.Machine
end

