-- ==== Sys2Proof/Laws/Ops.lean ====
section
/-! SUPPORT. For each shared operation one lemma that says everything it can do; later proofs cite these instead of unfolding
the operation. -/

namespace Sys2Proof.Machine

/-! ### How a command completes -/

theorem complete_eq (s : State) (r : Response) : s.complete r = .next (s.respond r) := rfl

theorem ok_eq (s : State) : s.ok = .next (s.respond { status := .ok }) := rfl

theorem illegalSequence_eq (s : State) : s.illegalSequence = .next (s.respond { status := .illegalSequence }) := rfl

theorem illegalOperand_eq (s : State) : s.illegalOperand = .next (s.respond { status := .illegalOperand }) := rfl

theorem illegalCommand_eq (s : State) : s.illegalCommand = .next (s.respond { status := .illegalCommand }) := rfl

theorem raiseError_eq (s : State) (k : ErrKind) (v l : Nat) :
    s.raiseError k v l = .next ((s.enterError k v l).respond
      { status := k.status, errKind := k, errLimit := BitVec.ofNat 16 l, errValue := BitVec.ofNat 17 v }) := rfl

/-! ### The response words that carry a status alone -/

@[simp] theorem word_ok : Response.word { status := .ok } = 0#64 := by decide

@[simp] theorem word_illegalCommand : Response.word { status := .illegalCommand } = 4#64 := by decide

@[simp] theorem word_illegalSequence : Response.word { status := .illegalSequence } = 5#64 := by decide

@[simp] theorem word_illegalOperand : Response.word { status := .illegalOperand } = 6#64 := by decide

/-! ### The operations of the decoder -/

/-- Everything the completion of a triplet can do (R102, R107). -/
theorem completeTriplet_cases (x : Value6) (s : State) :
    (65536 ≤ tripletValue s.decV0 s.decV1 x ∧
      completeTriplet x s = s.raiseError .overflow (tripletValue s.decV0 s.decV1 x) 65535) ∨
    (tripletValue s.decV0 s.decV1 x < 65536 ∧ s.decMode = .bytes ∧
      completeTriplet x s = (s.clearGroup.emitDec (byteBeats (tripletValue s.decV0 s.decV1 x))).ok) ∨
    (tripletValue s.decV0 s.decV1 x < 65536 ∧ s.decMode ≠ .bytes ∧
      completeTriplet x s = (s.clearGroup.emitDec (valueBeats (tripletValue s.decV0 s.decV1 x))).ok) := by
  unfold completeTriplet
  by_cases hu : 65536 ≤ tripletValue s.decV0 s.decV1 x
  · exact .inl ⟨hu, by simp [hu]⟩
  · by_cases hm : s.decMode = .bytes
    · exact .inr (.inl ⟨by omega, hm, by simp [hu, hm]⟩)
    · exact .inr (.inr ⟨by omega, hm, by simp [hu, hm]⟩)

/-- Everything an accepted value can do (R107). -/
theorem acceptValue_cases (x : Value6) (s : State) :
    (s.decCnt = 0 ∧ acceptValue x s = (s.bufferFirst x).ok) ∨
    (s.decCnt = 1 ∧ acceptValue x s = (s.bufferSecond x).ok) ∨
    (s.decCnt = 2 ∧ acceptValue x s = completeTriplet x s) := by
  unfold acceptValue
  by_cases h0 : s.decCnt = 0
  · exact .inl ⟨h0, by simp [h0]⟩
  · by_cases h1 : s.decCnt = 1
    · exact .inr (.inl ⟨h1, by simp [h1]⟩)
    · exact .inr (.inr ⟨by omega, by simp [h0, h1]⟩)

/-- Everything DEC_END can do in a BYTES session (R108). -/
theorem endBytes_cases (s : State) :
    (s.decCnt = 0 ∧ endBytes s = s.closeDec.ok) ∨
    (s.decCnt = 1 ∧ endBytes s = ((s.emitDec [narrowBeat (s.decV0.setWidth 8)]).closeDec).ok) ∨
    (s.decCnt = 2 ∧ doubleValue s.decV0 s.decV1 < 41 ∧
      endBytes s = s.raiseError .underflow (doubleValue s.decV0 s.decV1) 41) ∨
    (s.decCnt = 2 ∧ 256 ≤ doubleValue s.decV0 s.decV1 ∧
      endBytes s = s.raiseError .overflow (doubleValue s.decV0 s.decV1) 255) ∨
    (s.decCnt = 2 ∧ 41 ≤ doubleValue s.decV0 s.decV1 ∧ doubleValue s.decV0 s.decV1 < 256 ∧
      endBytes s = ((s.emitDec [narrowBeat (BitVec.ofNat 8 (doubleValue s.decV0 s.decV1))]).closeDec).ok) := by
  unfold endBytes
  by_cases h1 : s.decCnt = 1
  · exact .inr (.inl ⟨h1, by simp [h1]⟩)
  by_cases h2 : s.decCnt = 2
  · by_cases hu : doubleValue s.decV0 s.decV1 < 41
    · exact .inr (.inr (.inl ⟨h2, hu, by simp [h2, hu]⟩))
    · by_cases ho : 256 ≤ doubleValue s.decV0 s.decV1
      · exact .inr (.inr (.inr (.inl ⟨h2, ho, by simp [h2, hu, ho]⟩)))
      · exact .inr (.inr (.inr (.inr ⟨h2, by omega, by omega, by simp [h2, hu, ho]⟩)))
  · exact .inl ⟨by omega, by simp [h1, h2]⟩

/-- Everything DEC_END can do in a U16 session (R109). -/
theorem endU16_cases (s : State) :
    (s.decCnt = 0 ∧ endU16 s = s.closeDec.ok) ∨
    (s.decCnt ≠ 0 ∧ endU16 s = s.raiseError .contract s.decCnt.val 0) := by
  unfold endU16
  by_cases h : s.decCnt = 0
  · exact .inl ⟨h, by simp [h]⟩
  · exact .inr ⟨h, by simp [h]⟩

/-- Everything DEC_SYM can do, by the mode and the filter (R107). -/
theorem execDecSym_cases (b : Byte) (s : State) :
    ((s.decMode = .idle ∨ s.decMode = .error) ∧ execDecSym b s = s.illegalSequence) ∨
    ((s.decMode = .bytes ∨ s.decMode = .u16) ∧ rev s.cfg.revFilter b = none ∧ execDecSym b s = s.ok) ∨
    ((s.decMode = .bytes ∨ s.decMode = .u16) ∧ ∃ x, rev s.cfg.revFilter b = some x ∧
      execDecSym b s = acceptValue x s) := by
  unfold execDecSym
  cases hm : s.decMode <;> cases hr : rev s.cfg.revFilter b <;> simp

/-- Everything DEC_END can do, by the mode (R108, R109). -/
theorem execDecEnd_cases (s : State) :
    (s.decMode = .bytes ∧ execDecEnd s = endBytes s) ∨ (s.decMode = .u16 ∧ execDecEnd s = endU16 s) ∨
    ((s.decMode = .idle ∨ s.decMode = .error) ∧ execDecEnd s = s.illegalSequence) := by
  unfold execDecEnd
  cases hm : s.decMode <;> simp

/-! ### The operations of the encoder -/

/-- Everything ENC_BYTE can do (R93). -/
theorem execEncByte_cases (b : Byte) (s : State) :
    (s.encMode ≠ .bytes ∧ execEncByte b s = s.illegalSequence) ∨
    (s.encMode = .bytes ∧ s.encHv = false ∧ execEncByte b s = (s.holdByte b).ok) ∨
    (s.encMode = .bytes ∧ s.encHv = true ∧
      execEncByte b s = ((s.emitEnc (tripleSymbols (bytePair s.encHb b))).releaseByte).ok) := by
  unfold execEncByte
  by_cases hm : s.encMode = .bytes
  · cases hv : s.encHv
    · exact .inr (.inl ⟨hm, rfl, by simp [hm]⟩)
    · exact .inr (.inr ⟨hm, rfl, by simp [hm]⟩)
  · exact .inl ⟨hm, by simp [hm]⟩

/-- Everything ENC_U16 can do (R94). -/
theorem execEncU16_cases (u : Value16) (s : State) :
    (s.encMode ≠ .u16 ∧ execEncU16 u s = s.illegalSequence) ∨
    (s.encMode = .u16 ∧ execEncU16 u s = (s.emitEnc (tripleSymbols u)).ok) := by
  unfold execEncU16
  by_cases hm : s.encMode = .u16
  · exact .inr ⟨hm, by simp [hm]⟩
  · exact .inl ⟨hm, by simp [hm]⟩

/-- Everything ENC_END can do (R95). -/
theorem execEncEnd_cases (s : State) :
    (s.encMode = .idle ∧ execEncEnd s = s.illegalSequence) ∨
    (s.encMode = .bytes ∧ s.encHv = true ∧ execEncEnd s = ((s.emitEnc (tailSymbols s.encHb)).closeEnc).ok) ∨
    (s.encMode ≠ .idle ∧ ¬ (s.encMode = .bytes ∧ s.encHv = true) ∧ execEncEnd s = s.closeEnc.ok) := by
  unfold execEncEnd
  cases hm : s.encMode <;> cases hv : s.encHv <;> simp

/-! ### The lookups -/

/-- Everything LUT_FWD can do (R85). -/
theorem execLutFwd_cases (v : Byte) (s : State) :
    (∃ h : v.toNat < 41,
      execLutFwd v s = s.complete { status := .ok, rdata := fwd ⟨v.toNat, h⟩, rvalid := true }) ∨
    (41 ≤ v.toNat ∧ execLutFwd v s = s.illegalOperand) := by
  unfold execLutFwd
  by_cases h : v.toNat < 41
  · exact .inl ⟨h, by simp [h]⟩
  · exact .inr ⟨by omega, by simp [h]⟩

/-- Everything LUT_REV can do (R86). -/
theorem execLutRev_cases (b : Byte) (s : State) :
    (∃ x, rev s.cfg.revFilter b = some x ∧
      execLutRev b s = s.complete { status := .ok, rdata := x.setWidth 8, rvalid := true }) ∨
    (rev s.cfg.revFilter b = none ∧ execLutRev b s = s.ok) := by
  unfold execLutRev
  cases h : rev s.cfg.revFilter b
  · exact .inr ⟨rfl, rfl⟩
  · exact .inl ⟨_, rfl, rfl⟩

/-! ### The channels and the host -/

/-- When a channel lacks room (20_memory.md R50). -/
theorem lacksRoom_iff (d : OutDepth) (before after : Nat) :
    lacksRoom d before after = true ↔ ∃ n, d = .finite n ∧ before < after ∧ n < after := by
  cases d <;> simp [lacksRoom]

theorem lacksRoom_unbounded (before after : Nat) : lacksRoom .unbounded before after = false := rfl

theorem lacksRoom_self (d : OutDepth) (n : Nat) : lacksRoom d n n = false := by
  cases d <;> simp [lacksRoom]

/-- Taking a command never overfills an unbounded channel (R50). -/
theorem overfills_unbounded (s t : State) (h : s.cfg.outDepth = .unbounded) : s.overfills t = false := by
  simp [State.overfills, h, lacksRoom_unbounded]

/-- A pop takes the head beat, or finds the channel empty and changes nothing (R51, R161). -/
theorem popEnc_cases (s : State) :
    (s.encOut = [] ∧ s.popEnc = s) ∨
    (∃ b bs, s.encOut = b :: bs ∧ s.popEnc = { s with encOut := bs, encPopped := s.encPopped ++ [b] }) := by
  cases h : s.encOut <;> simp [State.popEnc, h]

theorem popDec_cases (s : State) :
    (s.decOut = [] ∧ s.popDec = s) ∨
    (∃ b bs, s.decOut = b :: bs ∧ s.popDec = { s with decOut := bs, decPopped := s.decPopped ++ [b] }) := by
  cases h : s.decOut <;> simp [State.popDec, h]

/-- What the host does next, or nothing (R150, R161). -/
theorem hostStep_cases (s : State) :
    (s.inbox = [] ∧ s.hostStep = s) ∨
    (∃ e es, s.inbox = e :: es ∧ s.hostStep = ({ s with inbox := es }).hostAct e) := by
  cases h : s.inbox <;> simp [State.hostStep, h]

/-! ### Commands and steps -/

/-- Everything a command word can do: its command, or ILLEGAL_COMMAND (R60, R63). -/
theorem executeWord_cases (w : CmdWord) (s : State) :
    (∃ i, decode w = .ok i ∧ executeWord w s = exec i s) ∨
    (∃ e, decode w = .error e ∧ executeWord w s = s.illegalCommand) := by
  cases h : decode w <;> simp [executeWord, h]

/-- Everything a step can do: the oldest command is taken, or the host acts because no command can be taken. -/
theorem step_cases {s t : State} (h : step s = .next t) :
    (∃ w rest u, s.issued = w :: rest ∧ executeWord w s = .next u ∧ s.overfills u = false ∧ t = u.dropIssued) ∨
    (s.issued = [] ∧ t = s.hostStep) ∨
    (∃ w rest u, s.issued = w :: rest ∧ executeWord w s = .next u ∧ s.overfills u = true ∧ t = s.hostStep) := by
  unfold step advance at h
  split at h
  · next hi => exact .inr (.inl ⟨hi, by simpa using h.symm⟩)
  · next w rest hi =>
    split at h
    · next u hu =>
      by_cases ho : s.overfills u = true
      · exact .inr (.inr ⟨w, rest, u, hi, hu, ho, by simpa [ho] using h.symm⟩)
      · exact .inl ⟨w, rest, u, hi, hu, by simpa using ho, by simpa [ho] using h.symm⟩
    · cases h
    · cases h

/-- A step that takes the oldest command. -/
theorem step_takes {s u : State} {w : CmdWord} {rest : List CmdWord} (hi : s.issued = w :: rest)
    (hu : executeWord w s = .next u) (ho : s.overfills u = false) : step s = .next u.dropIssued := by
  simp [step, advance, hi, hu, ho]

/-- A step on which the oldest command is held. -/
theorem step_holds {s u : State} {w : CmdWord} {rest : List CmdWord} (hi : s.issued = w :: rest)
    (hu : executeWord w s = .next u) (ho : s.overfills u = true) : step s = .next s.hostStep := by
  simp [step, advance, hi, hu, ho]

/-- A step with no command to take. -/
theorem step_idle {s : State} (hi : s.issued = []) : step s = .next s.hostStep := by
  simp [step, advance, hi]

/-- One command, then the rest (20_memory.md R49). -/
theorem execAll_cons {i : Instr} {is : List Instr} {s t : State} (h : exec i s = .next t) :
    execAll (i :: is) s = execAll is t := by
  simp [execAll, h]

/-- Commands in two parts. -/
theorem execAll_append {is js : List Instr} {s t : State} (h : execAll is s = .next t) :
    execAll (is ++ js) s = execAll js t := by
  induction is generalizing s with
  | nil => simp only [execAll] at h; cases h; rfl
  | cons i is ih =>
    cases hx : exec i s with
    | next u => simp [execAll, hx] at h; simp [execAll, hx, ih h]
    | fault r => simp [execAll, hx] at h
    | refused r => simp [execAll, hx] at h

/-! ### The results of sessions -/

@[simp] theorem bytesThrough_zero (f : RevFilter) (bs : List Byte) : bytesThrough f 0 bs = 0 := by
  cases bs <;> rfl

/-- A byte that the filter accepts counts toward the accepted ones (R114). -/
theorem bytesThrough_accepted {f : RevFilter} {b : Byte} {x : Value6} (n : Nat) (bs : List Byte) (h : rev f b = some x) :
    bytesThrough f (n + 1) (b :: bs) = bytesThrough f n bs + 1 := by simp [bytesThrough, h]

/-- A byte that the filter rejects is passed over (R114). -/
theorem bytesThrough_rejected {f : RevFilter} {b : Byte} (n : Nat) (bs : List Byte) (h : rev f b = none) :
    bytesThrough f (n + 1) (b :: bs) = bytesThrough f (n + 1) bs + 1 := by simp [bytesThrough, h]

theorem bytesThrough_le (f : RevFilter) (n : Nat) (bs : List Byte) : bytesThrough f n bs ≤ bs.length := by
  induction bs generalizing n with
  | nil => cases n <;> simp [bytesThrough]
  | cons b bs ih =>
    cases n with
    | zero => simp
    | succ n =>
      cases h : rev f b with
      | none => rw [bytesThrough_rejected n bs h]; simpa using ih (n + 1)
      | some x => rw [bytesThrough_accepted n bs h]; simpa using ih n

/-- A session ended by an error has the record and its beats as its result; any other has its beats (R162). -/
theorem decSessionResult_cases (before : Nat) (t : State) :
    (t.decMode = .error ∧ decSessionResult before t =
      .failed t.decEk t.decEv.toNat t.decEl.toNat ((decStream t).drop before)) ∨
    (t.decMode ≠ .error ∧ decSessionResult before t = .finished ((decStream t).drop before)) := by
  by_cases h : t.decMode = .error <;> simp [decSessionResult, h]

/-! ### The arithmetic of the transforms -/

theorem tripletValue_eq (v0 v1 v2 : Value6) :
    tripletValue v0 v1 v2 = v0.toNat + 41 * v1.toNat + 1681 * v2.toNat := by
  unfold tripletValue; ring

/-- A triplet value fits in 17 bits, whatever the 6-bit values are (R113). -/
theorem tripletValue_lt (v0 v1 v2 : Value6) : tripletValue v0 v1 v2 < 2 ^ 17 := by
  have := v0.isLt; have := v1.isLt; have := v2.isLt
  unfold tripletValue; omega

theorem doubleValue_lt (v0 v1 : Value6) : doubleValue v0 v1 < 2 ^ 12 := by
  have := v0.isLt; have := v1.isLt
  unfold doubleValue; omega

theorem tripleSymbols_length (u : Value16) : (tripleSymbols u).length = 3 := rfl

theorem tailSymbols_length (b : Byte) : (tailSymbols b).length = if 41 ≤ b.toNat then 2 else 1 := by
  unfold tailSymbols
  by_cases h : 41 ≤ b.toNat
  · have : b.toNat / 41 > 0 := by omega
    simp [h, this]
  · have : ¬ b.toNat / 41 > 0 := by omega
    simp [h, this]

/-- The digits of a value spell it (R88). -/
theorem tripleDigits_value (u : Value16) :
    u.toNat = (tripleDigits u).1.val + 41 * (tripleDigits u).2.1.val + 1681 * (tripleDigits u).2.2.val := by
  simp only [tripleDigits]; omega

end Sys2Proof.Machine
end

