-- ==== Sys2Proof/Laws/Exec.lean ====
section
/-! SUPPORT. Everything a command can do, said once: `exec_cases` gives, for a command that answers a next state, the one case of
its rule that applies. Later proofs about all commands go by cases on it instead of unfolding `exec`. -/

namespace Sys2Proof.Machine

/-- `ExecCase s i t`: the block in state `s` takes command `i` and is then in state `t`, by the case of the rule named. -/
inductive ExecCase (s : State) : Instr → State → Prop
  /-- R91 -/
  | encStartBytes : ExecCase s .encStartBytes ((s.openEnc .bytes).respond { status := .ok })
  /-- R92 -/
  | encStartU16 : ExecCase s .encStartU16 ((s.openEnc .u16).respond { status := .ok })
  /-- R93 -/
  | encByteRejected (b) (hm : s.encMode ≠ .bytes) : ExecCase s (.encByte b) (s.respond { status := .illegalSequence })
  | encByteHeld (b) (hm : s.encMode = .bytes) (hv : s.encHv = false) :
      ExecCase s (.encByte b) ((s.holdByte b).respond { status := .ok })
  | encBytePaired (b) (hm : s.encMode = .bytes) (hv : s.encHv = true) :
      ExecCase s (.encByte b)
        (((s.emitEnc (tripleSymbols (bytePair s.encHb b))).releaseByte).respond { status := .ok })
  /-- R94 -/
  | encU16Rejected (u) (hm : s.encMode ≠ .u16) : ExecCase s (.encU16 u) (s.respond { status := .illegalSequence })
  | encU16Emitted (u) (hm : s.encMode = .u16) :
      ExecCase s (.encU16 u) ((s.emitEnc (tripleSymbols u)).respond { status := .ok })
  /-- R95 -/
  | encEndRejected (hm : s.encMode = .idle) : ExecCase s .encEnd (s.respond { status := .illegalSequence })
  | encEndTail (hm : s.encMode = .bytes) (hv : s.encHv = true) :
      ExecCase s .encEnd (((s.emitEnc (tailSymbols s.encHb)).closeEnc).respond { status := .ok })
  | encEndClosed (hm : s.encMode ≠ .idle) (hv : ¬ (s.encMode = .bytes ∧ s.encHv = true)) :
      ExecCase s .encEnd (s.closeEnc.respond { status := .ok })
  /-- R96 -/
  | encAborted : ExecCase s .encAbort (s.closeEnc.respond { status := .ok })
  /-- R85 -/
  | lutFwdFound (v) (h : v.toNat < 41) :
      ExecCase s (.lutFwd v) (s.respond { status := .ok, rdata := fwd ⟨v.toNat, h⟩, rvalid := true })
  | lutFwdRefused (v) (h : 41 ≤ v.toNat) : ExecCase s (.lutFwd v) (s.respond { status := .illegalOperand })
  /-- R86 -/
  | lutRevAccepted (b x) (hr : rev s.cfg.revFilter b = some x) :
      ExecCase s (.lutRev b) (s.respond { status := .ok, rdata := x.setWidth 8, rvalid := true })
  | lutRevRejected (b) (hr : rev s.cfg.revFilter b = none) : ExecCase s (.lutRev b) (s.respond { status := .ok })
  /-- R105 -/
  | decStartBytes : ExecCase s .decStartBytes ((s.openDec .bytes).respond { status := .ok })
  /-- R106 -/
  | decStartU16 : ExecCase s .decStartU16 ((s.openDec .u16).respond { status := .ok })
  /-- R107 -/
  | decSymRejected (b) (hm : s.decMode = .idle ∨ s.decMode = .error) :
      ExecCase s (.decSym b) (s.respond { status := .illegalSequence })
  | decSymNoise (b) (hm : s.decMode = .bytes ∨ s.decMode = .u16) (hr : rev s.cfg.revFilter b = none) :
      ExecCase s (.decSym b) (s.respond { status := .ok })
  | decSymFirst (b x) (hm : s.decMode = .bytes ∨ s.decMode = .u16) (hr : rev s.cfg.revFilter b = some x)
      (hc : s.decCnt = 0) : ExecCase s (.decSym b) ((s.bufferFirst x).respond { status := .ok })
  | decSymSecond (b x) (hm : s.decMode = .bytes ∨ s.decMode = .u16) (hr : rev s.cfg.revFilter b = some x)
      (hc : s.decCnt = 1) : ExecCase s (.decSym b) ((s.bufferSecond x).respond { status := .ok })
  | decSymOverflow (b x) (hm : s.decMode = .bytes ∨ s.decMode = .u16) (hr : rev s.cfg.revFilter b = some x)
      (hc : s.decCnt = 2) (hu : 65536 ≤ tripletValue s.decV0 s.decV1 x) :
      ExecCase s (.decSym b)
        ((s.enterError .overflow (tripletValue s.decV0 s.decV1 x) 65535).respond
          { status := .overflow, errKind := .overflow, errLimit := BitVec.ofNat 16 65535,
            errValue := BitVec.ofNat 17 (tripletValue s.decV0 s.decV1 x) })
  | decSymOctets (b x) (hm : s.decMode = .bytes) (hr : rev s.cfg.revFilter b = some x)
      (hc : s.decCnt = 2) (hu : tripletValue s.decV0 s.decV1 x < 65536) :
      ExecCase s (.decSym b)
        ((s.clearGroup.emitDec (byteBeats (tripletValue s.decV0 s.decV1 x))).respond { status := .ok })
  | decSymValue (b x) (hm : s.decMode = .u16) (hr : rev s.cfg.revFilter b = some x)
      (hc : s.decCnt = 2) (hu : tripletValue s.decV0 s.decV1 x < 65536) :
      ExecCase s (.decSym b)
        ((s.clearGroup.emitDec (valueBeats (tripletValue s.decV0 s.decV1 x))).respond { status := .ok })
  /-- R108, R109 -/
  | decEndRejected (hm : s.decMode = .idle ∨ s.decMode = .error) :
      ExecCase s .decEnd (s.respond { status := .illegalSequence })
  | decEndClosed (hm : s.decMode = .bytes ∨ s.decMode = .u16) (hc : s.decCnt = 0) :
      ExecCase s .decEnd (s.closeDec.respond { status := .ok })
  | decEndSingle (hm : s.decMode = .bytes) (hc : s.decCnt = 1) :
      ExecCase s .decEnd (((s.emitDec [narrowBeat (s.decV0.setWidth 8)]).closeDec).respond { status := .ok })
  | decEndUnderflow (hm : s.decMode = .bytes) (hc : s.decCnt = 2) (hu : doubleValue s.decV0 s.decV1 < 41) :
      ExecCase s .decEnd
        ((s.enterError .underflow (doubleValue s.decV0 s.decV1) 41).respond
          { status := .underflow, errKind := .underflow, errLimit := BitVec.ofNat 16 41,
            errValue := BitVec.ofNat 17 (doubleValue s.decV0 s.decV1) })
  | decEndOverflow (hm : s.decMode = .bytes) (hc : s.decCnt = 2) (hu : 256 ≤ doubleValue s.decV0 s.decV1) :
      ExecCase s .decEnd
        ((s.enterError .overflow (doubleValue s.decV0 s.decV1) 255).respond
          { status := .overflow, errKind := .overflow, errLimit := BitVec.ofNat 16 255,
            errValue := BitVec.ofNat 17 (doubleValue s.decV0 s.decV1) })
  | decEndDouble (hm : s.decMode = .bytes) (hc : s.decCnt = 2) (hu : 41 ≤ doubleValue s.decV0 s.decV1)
      (hv : doubleValue s.decV0 s.decV1 < 256) :
      ExecCase s .decEnd
        (((s.emitDec [narrowBeat (BitVec.ofNat 8 (doubleValue s.decV0 s.decV1))]).closeDec).respond
          { status := .ok })
  | decEndContract (hm : s.decMode = .u16) (hc : s.decCnt ≠ 0) :
      ExecCase s .decEnd
        ((s.enterError .contract s.decCnt.val 0).respond
          { status := .contract, errKind := .contract, errLimit := BitVec.ofNat 16 0,
            errValue := BitVec.ofNat 17 s.decCnt.val })
  /-- R110 -/
  | decAborted : ExecCase s .decAbort ((s.leaveError .idle).respond { status := .ok })
  /-- R118 -/
  | stat : ExecCase s .stat
      (s.respond { status := .ok, rdata := statRdata s, rvalid := true,
                   errKind := s.decEk, errLimit := s.decEl, errValue := s.decEv })

theorem exec_decSym_cases {b : Byte} {s t : State} (h : execDecSym b s = .next t) : ExecCase s (.decSym b) t := by
  rcases execDecSym_cases b s with ⟨hm, h'⟩ | ⟨hm, hr, h'⟩ | ⟨hm, x, hr, h'⟩ <;> rw [h'] at h
  · cases h; exact .decSymRejected _ hm
  · cases h; exact .decSymNoise _ hm hr
  · rcases acceptValue_cases x s with ⟨hc, h'⟩ | ⟨hc, h'⟩ | ⟨hc, h'⟩ <;> rw [h'] at h
    · cases h; exact .decSymFirst _ _ hm hr hc
    · cases h; exact .decSymSecond _ _ hm hr hc
    · rcases completeTriplet_cases x s with ⟨hu, h'⟩ | ⟨hu, hb, h'⟩ | ⟨hu, hb, h'⟩ <;> rw [h'] at h <;> cases h
      · exact .decSymOverflow _ _ hm hr hc hu
      · exact .decSymOctets _ _ hb hr hc hu
      · exact .decSymValue _ _ (hm.resolve_left hb) hr hc hu

theorem exec_decEnd_cases {s t : State} (h : execDecEnd s = .next t) : ExecCase s .decEnd t := by
  rcases execDecEnd_cases s with ⟨hm, h'⟩ | ⟨hm, h'⟩ | ⟨hm, h'⟩ <;> rw [h'] at h
  · rcases endBytes_cases s with ⟨hc, h'⟩ | ⟨hc, h'⟩ | ⟨hc, hu, h'⟩ | ⟨hc, hu, h'⟩ | ⟨hc, hu, hv, h'⟩ <;>
      rw [h'] at h <;> cases h
    · exact .decEndClosed (.inl hm) hc
    · exact .decEndSingle hm hc
    · exact .decEndUnderflow hm hc hu
    · exact .decEndOverflow hm hc hu
    · exact .decEndDouble hm hc hu hv
  · rcases endU16_cases s with ⟨hc, h'⟩ | ⟨hc, h'⟩ <;> rw [h'] at h <;> cases h
    · exact .decEndClosed (.inr hm) hc
    · exact .decEndContract hm hc
  · cases h; exact .decEndRejected hm

/-- Everything a command can do. -/
theorem exec_cases {i : Instr} {s t : State} (h : exec i s = .next t) : ExecCase s i t := by
  cases i <;> simp only [exec] at h
  case encStartBytes => cases h; exact .encStartBytes
  case encStartU16 => cases h; exact .encStartU16
  case encByte b =>
    rcases execEncByte_cases b s with ⟨hm, h'⟩ | ⟨hm, hv, h'⟩ | ⟨hm, hv, h'⟩ <;> rw [h'] at h <;> cases h
    · exact .encByteRejected _ hm
    · exact .encByteHeld _ hm hv
    · exact .encBytePaired _ hm hv
  case encU16 u =>
    rcases execEncU16_cases u s with ⟨hm, h'⟩ | ⟨hm, h'⟩ <;> rw [h'] at h <;> cases h
    · exact .encU16Rejected _ hm
    · exact .encU16Emitted _ hm
  case encEnd =>
    rcases execEncEnd_cases s with ⟨hm, h'⟩ | ⟨hm, hv, h'⟩ | ⟨hm, hv, h'⟩ <;> rw [h'] at h <;> cases h
    · exact .encEndRejected hm
    · exact .encEndTail hm hv
    · exact .encEndClosed hm hv
  case encAbort => cases h; exact .encAborted
  case lutFwd v =>
    rcases execLutFwd_cases v s with ⟨hv, h'⟩ | ⟨hv, h'⟩ <;> rw [h'] at h <;> cases h
    · exact .lutFwdFound _ hv
    · exact .lutFwdRefused _ hv
  case lutRev b =>
    rcases execLutRev_cases b s with ⟨x, hr, h'⟩ | ⟨hr, h'⟩ <;> rw [h'] at h <;> cases h
    · exact .lutRevAccepted _ x hr
    · exact .lutRevRejected _ hr
  case decStartBytes => cases h; exact .decStartBytes
  case decStartU16 => cases h; exact .decStartU16
  case decSym b => exact exec_decSym_cases h
  case decEnd => exact exec_decEnd_cases h
  case decAbort => cases h; exact .decAborted
  case stat => cases h; exact .stat

end Sys2Proof.Machine
end

