-- ==== Sys2Proof/Laws/PerInstr.lean ====
section
/-! SUPPORT. What holds of every command as syntax, one lemma per constructor of Instr. -/

namespace Sys2Proof.Laws.EncodeLegal

/-- The word of a command is legal: its opcode is no reserved one, its reserved bits and its unused operand bits are 0
(30_encoding.md R59). -/
def Statement (i : Instr) : Prop := wordLegal (encode i) = true

theorem encStartBytes : Statement .encStartBytes := by unfold Statement; decide
theorem encStartU16 : Statement .encStartU16 := by unfold Statement; decide
theorem encByte (b : Byte) : Statement (.encByte b) := by simp [Statement, encode, wordLegal, opLegal, rsvLegal, opdLegal]
theorem encU16 (u : Value16) : Statement (.encU16 u) := by simp [Statement, encode, wordLegal, opLegal, rsvLegal, opdLegal]
theorem encEnd : Statement .encEnd := by unfold Statement; decide
theorem encAbort : Statement .encAbort := by unfold Statement; decide
theorem lutFwd (v : Byte) : Statement (.lutFwd v) := by simp [Statement, encode, wordLegal, opLegal, rsvLegal, opdLegal]
theorem lutRev (b : Byte) : Statement (.lutRev b) := by simp [Statement, encode, wordLegal, opLegal, rsvLegal, opdLegal]
theorem decStartBytes : Statement .decStartBytes := by unfold Statement; decide
theorem decStartU16 : Statement .decStartU16 := by unfold Statement; decide
theorem decSym (b : Byte) : Statement (.decSym b) := by simp [Statement, encode, wordLegal, opLegal, rsvLegal, opdLegal]
theorem decEnd : Statement .decEnd := by unfold Statement; decide
theorem decAbort : Statement .decAbort := by unfold Statement; decide
theorem stat : Statement .stat := by unfold Statement; decide

end Sys2Proof.Laws.EncodeLegal
end

