-- ==== Sys2Proof/Tests/Slice0.lean ====
section
/-! SUPPORT. The model's own tests: ill-formed terms for every check, the decoding of every command from a word written out from
30_encoding.md R58 and R59, one-step tests whose expected values are those of 95_test_vectors.md (the section stands beside
each), and for every statement with hypotheses a witness that meets them. -/

namespace Sys2Proof.Tests

open Sys2Proof.Machine

/-! ### Helpers -/

/-- The state an answer leads to. -/
def after (a : Answer) : State :=
  match a with
  | .next t => t
  | .fault _ => State.reset
  | .refused _ => State.reset

/-- Whether an answer is a next state. -/
def isNext (a : Answer) : Bool :=
  match a with
  | .next _ => true
  | .fault _ => false
  | .refused _ => false

/-- The state after one command. -/
def run1 (i : Instr) (s : State) : State := after (exec i s)

/-- The last response of a state. -/
def lastResponse (s : State) : RespWord := s.responses.getLastD 0xFFFFFFFFFFFFFFFF

/-- Reset, then an encoder session with what it holds. -/
def encState (m : EncMode) (hv : Bool) (hb : Byte) : State :=
  { State.reset with encMode := m, encHv := hv, encHb := hb }

/-- Reset, then a decoder session with what it has gathered. -/
def decState (m : DecMode) (cnt : Fin 3) (v0 v1 : Value6) : State :=
  { State.reset with decMode := m, decCnt := cnt, decV0 := v0, decV1 := v1 }

/-- The ERROR mode with the record of V7: OVERFLOW 65536/65535. -/
def errorState : State :=
  { State.reset with decMode := .error, decEk := .overflow, decEv := 65536, decEl := 65535 }

/-- The parameters with the STRICT filter, and with channels of a given depth. -/
def strict (s : State) : State := { s with cfg := { s.cfg with revFilter := .strict } }

def withDepth (n : Nat) (s : State) : State := { s with cfg := { s.cfg with outDepth := .finite n } }

/-- ENC_BYTE 0xFF waits for three free places of a channel of three beats that holds one. -/
def heldState (inbox : List HostEvent) : State :=
  withDepth 3 { encState .bytes true 0xFF with encOut := [0x30], decOut := [7], issued := [0x300000FF, 0xE0000000], inbox := inbox }

/-- DEC_SYM `V` waits for two free places of a channel of two beats that holds one. -/
def heldDecState (inbox : List HostEvent) : State :=
  withDepth 2 { decState .bytes 2 17 40 with decOut := [7], issued := [0xB0000056], inbox := inbox }

/-! ### Legality (30_encoding.md R59 to R61; the words are those of 95_test_vectors.md 2.11) -/

theorem test_word_op0_illegal : opLegal 0x0000004A = false ∧ wordLegal 0x00000000 = false := by decide
theorem test_word_opF_illegal : opLegal 0xF0000000 = false ∧ wordLegal 0xFFFFFFFF = false := by decide
theorem test_word_rsv_illegal : rsvLegal 0x10010000 = false ∧ rsvLegal 0x4001FFFF = false ∧ wordLegal 0x4801FFFF = false := by decide
theorem test_word_opd_none_illegal : opdLegal 0x10000001 = false ∧ opdLegal 0xE0000001 = false := by decide
theorem test_word_opd_byte_illegal : opdLegal 0x30000100 = false ∧ opdLegal 0xB0008030 = false ∧ opdLegal 0x7000FF00 = false := by decide
theorem test_word_legal : wordLegal 0x4000FFFF = true ∧ wordLegal 0x800000FF = true ∧ wordLegal 0xC0000000 = true := by decide
theorem test_config_depth_zero_illegal :
    Config.wellFormed { revFilter := .strict, outDepth := .finite 0 } = false ∧
    Config.wellFormed { revFilter := .strict, outDepth := .finite 1 } = true ∧ Config.wellFormed Config.default = true := by decide

/-! ### Decoding, one word for each command (30_encoding.md R58, R59) -/

theorem test_decode_encStartBytes : decodeTableWord 32 0x10000000 = some .encStartBytes := by decide
theorem test_decode_encStartU16 : decodeTableWord 32 0x20000000 = some .encStartU16 := by decide
theorem test_decode_encByte : decodeTableWord 32 0x3000006F = some (.encByte 0x6F) := by decide
theorem test_decode_encU16 : decodeTableWord 32 0x400020AC = some (.encU16 0x20AC) := by decide
theorem test_decode_encEnd : decodeTableWord 32 0x50000000 = some .encEnd := by decide
theorem test_decode_encAbort : decodeTableWord 32 0x60000000 = some .encAbort := by decide
theorem test_decode_lutFwd : decodeTableWord 32 0x70000029 = some (.lutFwd 41) := by decide
theorem test_decode_lutRev : decodeTableWord 32 0x8000006D = some (.lutRev 0x6D) := by decide
theorem test_decode_decStartBytes : decodeTableWord 32 0x90000000 = some .decStartBytes := by decide
theorem test_decode_decStartU16 : decodeTableWord 32 0xA0000000 = some .decStartU16 := by decide
theorem test_decode_decSym : decodeTableWord 32 0xB000006B = some (.decSym 0x6B) := by decide
theorem test_decode_decEnd : decodeTableWord 32 0xC0000000 = some .decEnd := by decide
theorem test_decode_decAbort : decodeTableWord 32 0xD0000000 = some .decAbort := by decide
theorem test_decode_stat : decodeTableWord 32 0xE0000000 = some .stat := by decide

/-- 95_test_vectors.md 2.11: words that decode to no command. -/
theorem test_decode_illegal :
    decodeTableWord 32 0x00000000 = none ∧ decodeTableWord 32 0xFFFFFFFF = none ∧ decodeTableWord 32 0x10010000 = none ∧
    decodeTableWord 32 0x30000100 = none ∧ decodeTableWord 32 0xE0000001 = none := by decide

/-- The words of 95_test_vectors.md 2.1, 2.5 and 3.1. -/
theorem test_encode_words :
    encode (.lutFwd 17) = 0x70000011 ∧ encode (.encU16 0x20AC) = 0x400020AC ∧ encode (.encByte 0x4A) = 0x3000004A ∧
    encode .decAbort = 0xD0000000 := by decide

/-! ### One command -/

/-- 2.6, the row `ENC_START_BYTES; ENC_BYTE 0x4A; ENC_START_BYTES`. -/
theorem test_encStartBytes_drops_held :
    (run1 .encStartBytes (encState .bytes true 0x4A)).encHv = false ∧
    (run1 .encStartBytes (encState .bytes true 0x4A)).encOut = [] := by decide

/-- 2.6, the last row: the held byte is dropped. -/
theorem test_encStartU16_drops_held :
    (run1 .encStartU16 (encState .bytes true 0x4A)).encMode = .u16 ∧
    (run1 .encStartU16 (encState .bytes true 0x4A)).encHv = false := by decide

/-- 2.3, the pairs 0x4A 0x6F and 0xFF 0xFF. -/
theorem test_encByte_pairs :
    (run1 (.encByte 0x6F) (encState .bytes true 0x4A)).encOut = [0x4F, 0x6D, 0x6B] ∧
    (run1 (.encByte 0xFF) (encState .bytes true 0xFF)).encOut = [0x41, 0x58, 0x56] := by decide

/-- 2.3, the pairs 0x06 0x90 and 0x06 0x91, on both sides of the first high digit. -/
theorem test_encByte_high_digit :
    (run1 (.encByte 0x90) (encState .bytes true 0x06)).encOut = [0x58, 0x58, 0x30] ∧
    (run1 (.encByte 0x91) (encState .bytes true 0x06)).encOut = [0x30, 0x30, 0x31] := by decide

/-- 2.5, the value 0x20AC. -/
theorem test_encU16_emits : (run1 (.encU16 0x20AC) (encState .u16 false 0)).encOut = [0x30, 0x58, 0x34] := by decide

/-- 2.4, the trailing bytes 0x28, 0x29 and 0xFF. -/
theorem test_encEnd_tails :
    (run1 .encEnd (encState .bytes true 0x28)).encOut = [0x58] ∧
    (run1 .encEnd (encState .bytes true 0x29)).encOut = [0x30, 0x31] ∧
    (run1 .encEnd (encState .bytes true 0xFF)).encOut = [0x39, 0x36] := by decide

/-- 41_encoder.md R95: a U16 session emits nothing at END. -/
theorem test_encEnd_u16_emits_nothing :
    (run1 .encEnd (encState .u16 false 0x21)).encOut = [] ∧ (run1 .encEnd (encState .u16 false 0x21)).encMode = .idle := by decide

/-- 41_encoder.md R96, its example. -/
theorem test_encAbort_drops_held :
    (run1 .encAbort (encState .bytes true 7)).encMode = .idle ∧ (run1 .encAbort (encState .bytes true 7)).encOut = [] := by decide

/-- 2.1, the indices 0, 17, 40 and 41. -/
theorem test_lutFwd_responses :
    (run1 (.lutFwd 0) State.reset).responses = [0x1300] ∧ (run1 (.lutFwd 17) State.reset).responses = [0x1410] ∧
    (run1 (.lutFwd 40) State.reset).responses = [0x1580] ∧ (run1 (.lutFwd 41) State.reset).responses = [6] := by decide

/-- 2.2, the bytes `m`, `!`, space and 0x7F under MODULAR. -/
theorem test_lutRev_modular :
    (run1 (.lutRev 0x6D) State.reset).responses = [0x10D0] ∧ (run1 (.lutRev 0x21) State.reset).responses = [0x1210] ∧
    (run1 (.lutRev 0x20) State.reset).responses = [0] ∧ (run1 (.lutRev 0x7F) State.reset).responses = [0] := by decide

/-- 2.2, the bytes `m`, `!` and `X` under STRICT. -/
theorem test_lutRev_strict :
    (run1 (.lutRev 0x6D) (strict State.reset)).responses = [0x10D0] ∧
    (run1 (.lutRev 0x21) (strict State.reset)).responses = [0] ∧
    (run1 (.lutRev 0x58) (strict State.reset)).responses = [0x1280] := by decide

/-- 2.10: a START clears the ERROR mode and its record. -/
theorem test_decStartBytes_leaves_error :
    (run1 .decStartBytes errorState).decMode = .bytes ∧ (run1 .decStartBytes errorState).decEk = .none ∧
    (run1 .decStartBytes errorState).decEl = 0 := by decide

/-- 2.10, the row `DEC_START_BYTES; SYMS "0"; DEC_START_U16`. -/
theorem test_decStartU16_drops_group :
    (run1 .decStartU16 (decState .bytes 1 0 0)).decMode = .u16 ∧ (run1 .decStartU16 (decState .bytes 1 0 0)).decCnt = 0 := by decide

/-- 2.7, `AXV` in both sessions: 0xFF 0xFF, and W:0xFFFF. -/
theorem test_decSym_completes :
    (run1 (.decSym 0x56) (decState .bytes 2 17 40)).decOut = [0xFF, 0xFF] ∧
    (run1 (.decSym 0x56) (decState .u16 2 17 40)).decOut = [0x1FFFF] ∧
    (run1 (.decSym 0x6B) (decState .bytes 2 31 13)).decOut = [0x4A, 0x6F] := by decide

/-- V7 and V8: `BXV` and `XXX` overflow. -/
theorem test_decSym_overflows :
    (run1 (.decSym 0x56) (decState .bytes 2 18 40)).responses = [0x00010000FFFF2001] ∧
    (run1 (.decSym 0x58) (decState .u16 2 40 40)).responses = [0x00010D38FFFF2001] ∧
    (run1 (.decSym 0x56) (decState .bytes 2 18 40)).decMode = .error := by decide

/-- 2.8: the doubles `01`, `96` and the single `X`. -/
theorem test_decEnd_remainders :
    (run1 .decEnd (decState .bytes 2 0 1)).decOut = [0x29] ∧ (run1 .decEnd (decState .bytes 2 9 6)).decOut = [0xFF] ∧
    (run1 .decEnd (decState .bytes 1 40 0)).decOut = [0x28] := by decide

/-- 2.8 and 2.9: `X0` underflows, `j6` and `XX` overflow, a U16 leftover of two is CONTRACT. -/
theorem test_decEnd_errors :
    (run1 .decEnd (decState .bytes 2 40 0)).responses = [0x0000002800294002] ∧
    (run1 .decEnd (decState .bytes 2 10 6)).responses = [0x0000010000FF2001] ∧
    (run1 .decEnd (decState .bytes 2 40 40)).responses = [0x0000069000FF2001] ∧
    (run1 .decEnd (decState .u16 2 0 0)).responses = [0x0000000200006003] := by decide

/-- 2.10: DEC_ABORT clears the record and drops the group. -/
theorem test_decAbort_clears :
    (run1 .decAbort errorState).decMode = .idle ∧ (run1 .decAbort errorState).decEk = .none ∧
    (run1 .decAbort (decState .bytes 2 0 0)).decCnt = 0 := by decide

/-- 2.11: STAT after a held byte, in the ERROR mode of `BXV`, and with two values gathered. -/
theorem test_stat_responses :
    (run1 .stat (encState .bytes true 0x4A)).responses = [0x1050] ∧
    (run1 .stat errorState).responses = [0x00010000FFFF3180] ∧
    (run1 .stat (decState .u16 2 0 40)).responses = [0x1500] ∧ (run1 .stat State.reset).responses = [0x1000] := by decide

/-! ### One step -/

/-- The word of `LUT_FWD 17` as the first command after reset. -/
theorem test_step_runs_placed_word :
    (after (step (State.reset.withFetchWord 32 0x70000011))).responses = [0x1410] ∧
    (after (step (State.reset.withFetchWord 32 0x70000011))).issued = [] := by decide

/-- 2.11: an illegal word responds ILLEGAL_COMMAND. -/
theorem test_step_illegal_word : (after (step (State.reset.withFetchWord 32 0x10000001))).responses = [4] := by decide

/-- 20_memory.md R50: the held command emits nothing and does not respond, and the host's pop happens. -/
theorem test_step_held :
    (after (step (heldState [.popEnc]))).encOut = [] ∧ (after (step (heldState [.popEnc]))).encPopped = [0x30] ∧
    (after (step (heldState [.popEnc]))).responses = [] ∧
    (after (step (after (step (heldState [.popEnc]))))).encOut = [0x41, 0x58, 0x56] := by decide

/-- 95_test_vectors.md 3.6, the closing words: reset empties the channel, and the next STAT responds 0x1000. -/
theorem test_step_reset :
    (after (step { encState .idle false 0 with encOut := [0x30, 0x31], inbox := [.reset] })).encOut = [] ∧
    (run1 .stat (after (step { errorState with inbox := [.reset] }))).responses = [0x1000] := by decide

/-! ### The reference functions and the text -/

/-- V5 and V6. -/
theorem test_encodeBytes_john :
    encodeBytes [0x4A, 0x6F, 0x68, 0x6E, 0x21] = [0x4F, 0x6D, 0x6B, 0x32, 0x55, 0x6F, 0x51] ∧
    encodeBytes [0x4A, 0x6F, 0x68, 0x6E, 0x29] = [0x4F, 0x6D, 0x6B, 0x32, 0x55, 0x6F, 0x30, 0x31] := by decide

/-- V11.5: `Omk2Uo!Q` under both filters. -/
theorem test_decodeBytes_alias :
    decodeBytes .modular [0x4F, 0x6D, 0x6B, 0x32, 0x55, 0x6F, 0x21, 0x51] = .err .overflow 1386 255 ∧
    decodeBytes .strict [0x4F, 0x6D, 0x6B, 0x32, 0x55, 0x6F, 0x21, 0x51] = .ok [0x4A, 0x6F, 0x68, 0x6E, 0x21] := by decide

/-- 2.9: `0X4-A-X` leaves two values over, and `BXV0` overflows first. -/
theorem test_decodeU16_errors :
    decodeU16 .modular [0x30, 0x58, 0x34, 0x2D, 0x41, 0x2D, 0x58] = .err .contract 2 0 ∧
    decodeU16 .modular [0x42, 0x58, 0x56, 0x30] = .err .overflow 65536 65535 := by decide

/-- 43_control_and_functions.md R129: the beats of an earlier group are not part of the answer of a failed decode. -/
theorem test_materialize_drops_beats :
    (decSessionResult 0 { errorState with decOut := [0, 0] }).materialize = .err .overflow 65536 65535 ∧
    (decSessionResult 1 { State.reset with decOut := [7, 0x4A] }).materialize = .ok [0x4A] := by decide

/-- 95_test_vectors.md 3.3: "OVERFLOW 65536/65535, after beats 0x00 0x00"; the host may have popped one of them. -/
theorem test_session_results :
    decSessionResult 0 { errorState with decPopped := [0], decOut := [0] } = .failed .overflow 65536 65535 [0, 0] ∧
    decSessionResult 1 { State.reset with decPopped := [7], decOut := [0xFF] } = .finished [0xFF] ∧
    encSessionResult 2 { State.reset with encOut := [0x41, 0x58, 0x56] } = .finished [0x56] := by decide

/-- Where a decode fails: 3.3 (`000BXV` fails on the response of its sixth symbol), V11.5 (at DEC_END), and noise before the
completing symbol. -/
theorem test_responses_before_failure :
    responsesBeforeFailure .modular [0x30, 0x30, 0x30, 0x42, 0x58, 0x56, 0x30] = 6 ∧
    responsesBeforeFailure .modular [0x4F, 0x6D, 0x6B, 0x32, 0x55, 0x6F, 0x21, 0x51] = 9 ∧
    responsesBeforeFailure .strict [0x2D, 0x42, 0x58, 0x21, 0x56, 0x30] = 5 := by decide

/-- 30_encoding.md R75: the three operand forms mean the same byte, and a comment is no operand. -/
theorem test_assemble_operands :
    assembleLine "ENC_BYTE 74".toList = .ok [.encByte 0x4A] ∧ assembleLine "ENC_BYTE 0x4A ; J".toList = .ok [.encByte 0x4A] ∧
    assembleLine "ENC_BYTE 'J'".toList = .ok [.encByte 0x4A] := ⟨rfl, rfl, rfl⟩

/-- 30_encoding.md R74, R75: an operand that is not taken, one outside its field, and a name in the wrong case. -/
theorem test_assemble_errors :
    assembleLine "STAT 0".toList = .error .operandNotTaken ∧ assembleLine "DEC_SYM 256".toList = .error .operandOutOfField ∧
    assembleLine "stat".toList = .error .unknownMnemonic ∧ assembleLine "LUT_FWD 255".toList = .ok [.lutFwd 255] := ⟨rfl, rfl, rfl, rfl⟩

/-- 30_encoding.md R76: `ENCODE_BYTES "Jo"` is the first commands of 95_test_vectors.md 3.1 with an END, and an escape. -/
theorem test_assemble_string :
    assembleLine "ENCODE_BYTES \"J\\x6F\"".toList = .ok [.encStartBytes, .encByte 0x4A, .encByte 0x6F, .encEnd] ∧
    assembleLine "SYMS \"\"".toList = .ok [] := ⟨rfl, rfl⟩

/-- 30_encoding.md R77. -/
theorem test_assemble_values :
    assembleLine "ENCODE_U16 0x20AC, 65535".toList = .ok [.encStartU16, .encU16 0x20AC, .encU16 0xFFFF, .encEnd] := rfl

/-- The line ends of log 14: the newline ends a line, and a carriage return is no blank. -/
theorem test_assemble_lines :
    assemble "DEC_END\n; x\nSTAT\n".toList = .ok [.decEnd, .stat] ∧
    assemble "DEC_END\nSTAT\r\n".toList = .error (1, .unknownMnemonic) := ⟨rfl, rfl⟩

/-- 95_test_vectors.md 3.1, line 11 of the listing. -/
theorem test_listing_line : listingLine 11 0x30000000 = "11: 30000000  ENC_BYTE 0x00".toList := rfl

/-- U12, U3: a response that reports a fault of the host program is not part of a good run; ILLEGAL_SEQUENCE may be. -/
theorem test_goodRun :
    goodRun { State.reset with responses := [0, 5, 0x1000] } = true ∧ goodRun { State.reset with responses := [0, 4] } = false ∧
    goodRun { State.reset with responses := [6] } = false ∧ goodRun (run1 .decEnd (decState .u16 1 0 0)) = false := by decide

/-- 70_reset_and_hazards.md R162: a session that ended in an error is over, and a run with a pop still to come is. -/
theorem test_sessions_and_runs :
    decSessionOpen errorState = false ∧ decSessionOpen (decState .u16 0 0 0) = true ∧
    encSessionOpen (encState .u16 false 0) = true ∧ runOver { State.reset with lastEnd := .answered, inbox := [.popEnc] } = true ∧
    runOver { State.reset with lastEnd := .answered, inbox := [.issue 0] } = false := by decide

/-- 70_reset_and_hazards.md R151, R162: a run whose last command reset discarded while it was held is not over; a run whose last
command was taken is, also after a reset. -/
theorem test_run_discarded :
    (after (step (heldState [.reset]))).issued = [] ∧ runOver (after (step (heldState [.reset]))) = false ∧
    runOver (after (step (State.reset.withFetchWord 32 0xE0000000))) = true ∧
    runOver (after (step { State.reset with lastEnd := .answered, inbox := [.reset] })) = true := by decide

/-! ### Witnesses: for each statement with hypotheses, states and operands that meet them -/

theorem witness_EncodeOfDecodedWordIsTheWord : decode 0xB00000FF = .ok (.decSym 0xFF) := rfl

theorem witness_ReservedWordsDecodeToNoCommand :
    (0x0FFFFFFF#32).toNat / 2 ^ 28 = 0 ∧ (0xF0000000#32).toNat / 2 ^ 28 = 15 ∧ (0x10010000#32).toNat / 2 ^ 16 % 2 ^ 12 ≠ 0 ∧
    (0x18000000#32).toNat / 2 ^ 16 % 2 ^ 12 ≠ 0 := by decide

/-- Three beats into a channel of three free places, exactly full afterwards. -/
theorem witness_StepRunsTheDecodedCommand :
    let s := withDepth 3 { encState .bytes true 0xFF with issued := [0x300000FF] }
    s.issued = 0x300000FF :: [] ∧ decode 0x300000FF = .ok (.encByte 0xFF) ∧
    exec (.encByte 0xFF) s = .next (run1 (.encByte 0xFF) s) ∧
    WithinDepth s.cfg.outDepth (run1 (.encByte 0xFF) s).encOut.length ∧
    WithinDepth s.cfg.outDepth (run1 (.encByte 0xFF) s).decOut.length :=
  ⟨rfl, rfl, rfl, by show 3 ≤ 3; decide, by show 0 ≤ 3; decide⟩

/-- A held ENC command with its three clauses: nothing to come, a pop of each channel. -/
theorem witness_HeldCommandWaitsForAPop (inbox : List HostEvent) :
    let s := heldState inbox
    let t := after (executeWord 0x300000FF s)
    s.issued = 0x300000FF :: [0xE0000000] ∧ executeWord 0x300000FF s = .next t ∧ s.cfg.outDepth = .finite 3 ∧
    s.encOut.length < t.encOut.length ∧ 3 < t.encOut.length ∧ s.encOut = 0x30 :: [] ∧ s.decOut = 7 :: [] :=
  ⟨rfl, rfl, rfl, by show 1 < 4; decide, by show 3 < 4; decide, rfl, rfl⟩

/-- A held DEC command. -/
theorem witness_HeldCommandWaitsForAPop_dec :
    let s := heldDecState [.popDec]
    let t := after (executeWord 0xB0000056 s)
    s.issued = 0xB0000056 :: [] ∧ executeWord 0xB0000056 s = .next t ∧ s.cfg.outDepth = .finite 2 ∧
    s.decOut.length < t.decOut.length ∧ 2 < t.decOut.length :=
  ⟨rfl, rfl, rfl, by show 1 < 3; decide, by show 2 < 3; decide⟩

theorem witness_UnboundedChannelsNeverHold :
    let s := { encState .bytes true 0xFF with issued := [0x300000FF] }
    s.cfg.outDepth = .unbounded ∧ s.issued = 0x300000FF :: [] := ⟨rfl, rfl⟩

theorem witness_IllegalWordOnlyResponds :
    let s := withDepth 1 { State.reset with encOut := [0x30], issued := [0xF0000000, 0xE0000000] }
    s.issued = 0xF0000000 :: [0xE0000000] ∧ decode 0xF0000000 = .error .reservedOpcode := ⟨rfl, rfl⟩

/-- The block waits when nothing is issued, and while a command is held. -/
theorem witness_Waiting (inbox : List HostEvent) :
    Waiting { State.reset with inbox := inbox } ∧ Waiting (heldState inbox) :=
  ⟨.inl rfl, .inr ⟨0x300000FF, [0xE0000000], _, 3, rfl, rfl, rfl, .inl ⟨by show 1 < 4; decide, by show 3 < 4; decide⟩⟩⟩

/-- Both channels, empty and not. -/
theorem witness_PopReturnsTheHeadBeat :
    Waiting { State.reset with inbox := [.popEnc] } ∧ Waiting { State.reset with inbox := [.popDec] } ∧
    Waiting (heldState [.popEnc]) ∧ Waiting (heldState [.popDec]) ∧
    (heldState [.popEnc]).encOut = 0x30 :: [] ∧ (heldState [.popDec]).decOut = 7 :: [] :=
  ⟨.inl rfl, .inl rfl, (witness_Waiting _).2, (witness_Waiting _).2, rfl, rfl⟩

theorem witness_ResetEventGivesTheResetState :
    Waiting (heldState [.reset, .popEnc]) ∧ (heldState [.reset, .popEnc]).inbox = .reset :: [.popEnc] :=
  ⟨(witness_Waiting _).2, rfl⟩

theorem witness_IssuedCommandWaitsItsTurn :
    Waiting (heldState [.issue 0x70000011]) ∧ (heldState [.issue 0x70000011]).inbox = .issue 0x70000011 :: [] ∧
    Waiting (heldState []) ∧ (heldState []).inbox = [] :=
  ⟨(witness_Waiting _).2, rfl, (witness_Waiting _).2, rfl⟩

theorem witness_StepKeepsTheParameters :
    step (heldState [.reset]) = .next (after (step (heldState [.reset]))) := rfl

theorem witness_BeatsStayUntilPoppedOrReset :
    step (heldState [.popEnc]) = .next (after (step (heldState [.popEnc]))) ∧
    ¬ (Waiting (heldState [.popEnc]) ∧ ∃ es, (heldState [.popEnc]).inbox = .reset :: es) ∧
    step { State.reset with issued := [0], inbox := [.reset] } = .next (after (step { State.reset with issued := [0], inbox := [.reset] })) ∧
    ¬ Waiting { State.reset with issued := [0], inbox := [.reset] } :=
  ⟨rfl, fun ⟨_, _, h⟩ => (by cases h), rfl, by
    rintro (h | ⟨w, rest, t, n, -, -, h, -⟩)
    · cases h
    · cases h⟩

/-- A state that meets the invariant in the middle of two sessions, with beats, a response and a command that is taken. -/
def busyState : State :=
  withDepth 3
    { encState .bytes true 0xFF with
      decMode := .bytes, decCnt := 2, decV0 := 40, decV1 := 40, decOut := [0xFF], responses := [0x1000], issued := [0xB0000058] }

theorem witness_StepKeepsTheInvariant :
    Inv busyState ∧ step busyState = .next (after (step busyState)) ∧ (after (step busyState)).decMode = .error :=
  ⟨{ heldByte := fun _ => rfl
     gathered := fun _ => .inl rfl
     errorMode := by decide
     record := ⟨rfl, rfl⟩
     firstValue := fun _ => by decide
     secondValue := fun _ => by decide
     encBeats := by intro b hb; cases hb
     decBeats := by
       intro b hb
       have : b = 0xFF := by simpa [busyState, withDepth] using hb
       exact .inr ⟨0xFF, by rw [this]; decide⟩
     encDepth := by show 0 ≤ 3; decide
     decDepth := by show 1 ≤ 3; decide
     responsesLegal := by
       intro w hw
       have : w = 0x1000 := by simpa [busyState, withDepth, encState] using hw
       subst this; exact ⟨by decide, by decide, by decide⟩ },
   rfl, by decide⟩

theorem witness_IssuedCommandsRunInOrder :
    let s := { State.reset with issued := [Instr.encStartBytes, .encByte 0x21, .encEnd].map encode }
    s.issued = [0x10000000, 0x30000021, 0x50000000] ∧ s.cfg.outDepth = .unbounded ∧ s.inbox = [] := by decide

/-- A byte at each end of the values that MODULAR answers, and a STRICT one. -/
theorem witness_ReverseLookupsAgreeOnTheAlphabet :
    rev .modular 0x28 = some 40 ∧ rev .modular 0x60 = some 0 ∧ rev .strict 0x58 = some 40 := by decide

theorem witness_LutFwdAnswersTheSymbol : (40 : Byte).toNat ≤ 40 ∧ 41 ≤ (41 : Byte).toNat := by decide

theorem witness_LutRevAnswersTheValue :
    rev State.reset.cfg.revFilter 0x7E = some 30 ∧ rev State.reset.cfg.revFilter 0x7F = none ∧
    rev (strict State.reset).cfg.revFilter 0x7E = none := by decide

/-- A command in a wrong mode, and one that is not. -/
theorem witness_IllegalSequenceExactlyInWrongMode :
    WrongMode (.encByte 0) (encState .u16 false 0) ∧ WrongMode .decEnd errorState ∧ ¬ WrongMode .decAbort errorState :=
  ⟨.inl ⟨⟨0, rfl⟩, by decide⟩, .inr (.inr (.inr ⟨.inr rfl, .inr rfl⟩)), by simp [WrongMode]⟩

theorem witness_EncBytePairsBytes :
    (encState .u16 false 0).encMode ≠ .bytes ∧
    ((encState .bytes false 0).encMode = .bytes ∧ (encState .bytes false 0).encHv = false) ∧
    ((encState .bytes true 0xFF).encMode = .bytes ∧ (encState .bytes true 0xFF).encHv = true) := by decide

theorem witness_EncU16EmitsThreeSymbols : (encState .bytes false 0).encMode ≠ .u16 ∧ (encState .u16 false 0).encMode = .u16 := by decide

theorem witness_EncEndEmitsTheRemainder :
    State.reset.encMode = .idle ∧
    ((encState .bytes true 40).encMode = .bytes ∧ (encState .bytes true 40).encHv = true) ∧
    ((encState .u16 true 0).encMode ≠ .idle ∧ ¬ ((encState .u16 true 0).encMode = .bytes ∧ (encState .u16 true 0).encHv = true)) := by
  decide

/-- Every clause, the two sides of 65536 among them: `AXV` and `BXV`. -/
theorem witness_DecSymGathersTriplets :
    (errorState.decMode ≠ .bytes ∧ errorState.decMode ≠ .u16) ∧
    ((decState .bytes 0 0 0).decMode = .bytes ∧ rev State.reset.cfg.revFilter 0x29 = none) ∧
    (rev State.reset.cfg.revFilter 0x56 = some 38 ∧ (decState .u16 0 0 0).decCnt = 0 ∧ (decState .u16 1 0 0).decCnt = 1) ∧
    ((decState .bytes 2 18 40).decCnt = 2 ∧ (18 : Value6).toNat + 41 * (40 : Value6).toNat + 1681 * (38 : Value6).toNat = 65536) ∧
    ((decState .bytes 2 17 40).decCnt = 2 ∧ (17 : Value6).toNat + 41 * (40 : Value6).toNat + 1681 * (38 : Value6).toNat = 65535) ∧
    (decState .u16 2 17 40).decMode = .u16 := by decide

/-- Every clause at both ends: no value, one, and two that make 40, 41, 255 and 256. -/
theorem witness_DecEndClosesABytesSession :
    (State.reset.decMode = .idle ∧ errorState.decMode = .error) ∧
    ((decState .bytes 0 0 0).decMode = .bytes ∧ (decState .bytes 0 0 0).decCnt = 0 ∧ (decState .bytes 1 40 0).decCnt = 1 ∧
      (decState .bytes 2 40 0).decCnt = 2) ∧
    (40 : Value6).toNat + 41 * (0 : Value6).toNat = 40 ∧ (0 : Value6).toNat + 41 * (1 : Value6).toNat = 41 ∧
    (9 : Value6).toNat + 41 * (6 : Value6).toNat = 255 ∧ (10 : Value6).toNat + 41 * (6 : Value6).toNat = 256 := by decide

theorem witness_DecEndClosesAU16Session :
    (decState .u16 0 0 0).decMode = .u16 ∧ (decState .u16 0 0 0).decCnt = 0 ∧ (decState .u16 1 0 0).decCnt ≠ 0 ∧
    (decState .u16 2 0 0).decCnt ≠ 0 := by decide

/-- The high digit 38 with 1657 and with 1658 below it, and the high digits 37 and 39. -/
theorem witness_TripletOverflowsByItsHighDigit (m : DecMode) (hm : m = .bytes ∨ m = .u16) :
    ((decState m 2 17 40).decMode = .bytes ∨ (decState m 2 17 40).decMode = .u16) ∧ (decState m 2 17 40).decCnt = 2 ∧
    (17 : Value6).toNat ≤ 40 ∧ (40 : Value6).toNat ≤ 40 ∧ 17 + 41 * 40 = 1657 ∧
    rev State.reset.cfg.revFilter 0x56 = some 38 ∧ rev State.reset.cfg.revFilter 0x55 = some 37 ∧
    rev State.reset.cfg.revFilter 0x57 = some 39 ∧
    exec (.decSym 0x56) (decState .bytes 2 17 40) = .next (run1 (.decSym 0x56) (decState .bytes 2 17 40)) ∧
    exec (.decSym 0x56) (decState .bytes 2 18 40) = .next (run1 (.decSym 0x56) (decState .bytes 2 18 40)) :=
  ⟨hm, rfl, by decide, by decide, by decide, by decide, by decide, by decide, rfl, rfl⟩

theorem witness_UnitsLeaveEachOtherAlone :
    exec (.encByte 1) busyState = .next (run1 (.encByte 1) busyState) ∧ Instr.unit (.encByte 1) ≠ .dec ∧
    exec .decEnd busyState = .next (run1 .decEnd busyState) ∧ Instr.unit .decEnd ≠ .enc := ⟨rfl, by decide, rfl, by decide⟩

theorem witness_LutAndStatOnlyRespond : Instr.unit (.lutFwd 255) = .lut ∧ Instr.unit (.lutRev 0) = .lut ∧ Instr.unit .stat = .all := by
  decide

/-- Two states that agree on one unit and differ on the other. -/
theorem witness_UnitResultsDependOnTheirOwnState :
    exec (.encByte 1) busyState = .next (run1 (.encByte 1) busyState) ∧
    exec (.encByte 1) (encState .bytes true 0xFF) = .next (run1 (.encByte 1) (encState .bytes true 0xFF)) ∧
    encUnit busyState = encUnit (encState .bytes true 0xFF) ∧ decUnit busyState ≠ decUnit (encState .bytes true 0xFF) ∧
    exec .decEnd errorState = .next (run1 .decEnd errorState) ∧
    exec .decEnd { errorState with encHv := true } = .next (run1 .decEnd { errorState with encHv := true }) ∧
    decUnit errorState = decUnit { errorState with encHv := true } :=
  ⟨rfl, rfl, rfl, by decide, rfl, rfl, rfl⟩

theorem witness_EncAndDecCommandsCommute : Instr.unit (.encU16 65535) = .enc ∧ Instr.unit (.decSym 0) = .dec := by decide

/-- A command with three ENC beats and one with two DEC beats. -/
theorem witness_CommandsOnlyAppendBeats :
    exec (.encByte 1) busyState = .next (run1 (.encByte 1) busyState) ∧
    exec (.decSym 0x30) busyState = .next (run1 (.decSym 0x30) busyState) ∧
    (run1 (.decSym 0x30) busyState).decOut.length = 3 := ⟨rfl, rfl, by decide⟩

/-- The three kinds. -/
theorem witness_DataErrorsEnterTheErrorMode :
    exec (.decSym 0x58) busyState = .next (run1 (.decSym 0x58) busyState) ∧
    (run1 (.decSym 0x58) busyState).responses = busyState.responses ++ [0x00010D38FFFF2001] ∧
    (statusField 0x00010D38FFFF2001).toNat = 1 ∧
    (run1 .decEnd (decState .bytes 2 40 0)).responses = [0x0000002800294002] ∧ (statusField 0x0000002800294002).toNat = 2 ∧
    (run1 .decEnd (decState .u16 1 0 0)).responses = [0x0000000100006003] ∧ (statusField 0x0000000100006003).toNat = 3 :=
  ⟨rfl, by decide, by decide, by decide, by decide, by decide, by decide⟩

theorem witness_ErrorModeIsLeftOnlyByStartOrAbort :
    errorState.decMode = .error ∧ exec .decAbort errorState = .next (run1 .decAbort errorState) ∧
    exec (.decSym 0x30) errorState = .next (run1 (.decSym 0x30) errorState) ∧
    ¬ (Instr.decSym 0x30 = .decStartBytes ∨ Instr.decSym 0x30 = .decStartU16 ∨ Instr.decSym 0x30 = .decAbort) :=
  ⟨rfl, rfl, rfl, by decide⟩

/-- Commands of both units without a START, from IDLE and from ERROR. -/
theorem witness_ClosedSessionsDoNotResume :
    execAll [.encByte 1, .decSym 0x30, .decAbort] errorState = .next (after (execAll [.encByte 1, .decSym 0x30, .decAbort] errorState)) ∧
    errorState.encMode = .idle ∧ errorState.decMode = .error ∧
    (∀ i ∈ [Instr.encByte 1, .decSym 0x30, .decAbort], i ≠ .encStartBytes ∧ i ≠ .encStartU16) ∧
    (∀ i ∈ [Instr.encByte 1, .decSym 0x30, .decAbort], i ≠ .decStartBytes ∧ i ≠ .decStartU16) :=
  ⟨rfl, rfl, rfl, by decide, by decide⟩

theorem witness_EncoderRaisesNoDataError : Instr.unit .encEnd = .enc ∧ Instr.unit (.encByte 255) = .enc := by decide

/-- V11.4, `A-X-V`, and U16 text with noise in front and behind. -/
theorem witness_NoiseDoesNotChangeWhatIsDecoded :
    [0x41, 0x2D, 0x58, 0x2D, 0x56].filter (fun b => (rev .modular b).isSome) = encodeBytes [0xFF, 0xFF] ∧
    [0x20, 0x41, 0x58, 0x56, 0xFF].filter (fun b => (rev .strict b).isSome) = encodeU16 [0xFFFF] := by decide

/-- 2.9, the row `-. `. -/
theorem witness_NoiseAloneDecodesToNothing :
    (∀ b ∈ ([0x2D, 0x2E, 0x20] : List Byte), rev .modular b = none) ∧ (∀ b ∈ ([0x21, 0x59] : List Byte), rev .strict b = none) := by
  decide

end Sys2Proof.Tests
end

section
/-! The values of the reset state (10_state.md R38). -/

namespace Sys2Proof.Machine

/-- Settles O19: `State.reset` writes each field of R38 as a literal, so each of the twelve values is read off it. -/
theorem resetStateHasTheResetValues : Obligations.ResetStateHasTheResetValues := by
  unfold Obligations.ResetStateHasTheResetValues
  exact ⟨rfl, rfl, rfl, rfl, rfl, rfl, rfl, rfl, rfl, rfl, rfl, rfl⟩

end Sys2Proof.Machine
end

section
/-! The channels (20_memory.md R50, R51, R54, R56): what a command appends, what a pop moves, and so what a step keeps. -/

namespace Sys2Proof.Machine

/-! ### Commands -/

/-- Only ENC_BYTE, ENC_U16 and ENC_END ever emit to ENC_OUT, and at most a triplet's symbols (R88, R89). -/
theorem exec_appends_encOut {i : Instr} {s t : State} (h : exec i s = .next t) :
    ∃ e, t.encOut = s.encOut ++ e ∧ e.length ≤ 3 ∧ (e ≠ [] → i.unit = .enc) := by
  cases exec_cases h with
  | encBytePaired b hm hv => exact ⟨_, rfl, (tripleSymbols_length _).le, fun _ => rfl⟩
  | encU16Emitted u hm => exact ⟨_, rfl, (tripleSymbols_length u).le, fun _ => rfl⟩
  | encEndTail hm hv =>
    have hlen : (tailSymbols s.encHb).length ≤ 3 := by rw [tailSymbols_length]; split <;> omega
    exact ⟨_, rfl, hlen, fun _ => rfl⟩
  | _ => exact ⟨[], by simp⟩

/-- Only DEC_SYM and DEC_END ever emit to DEC_OUT, and at most a triplet's two octets (R102, R108). -/
theorem exec_appends_decOut {i : Instr} {s t : State} (h : exec i s = .next t) :
    ∃ d, t.decOut = s.decOut ++ d ∧ d.length ≤ 2 ∧ (d ≠ [] → i.unit = .dec) := by
  cases exec_cases h with
  | decSymOctets b x hm hr hc hu => exact ⟨byteBeats _, rfl, by simp [byteBeats], fun _ => rfl⟩
  | decSymValue b x hm hr hc hu => exact ⟨valueBeats _, rfl, by simp [valueBeats], fun _ => rfl⟩
  | decEndSingle hm hc => exact ⟨[_], rfl, by simp, fun _ => rfl⟩
  | decEndDouble hm hc hu hv => exact ⟨[_], rfl, by simp, fun _ => rfl⟩
  | _ => exact ⟨[], by simp⟩

/-- A command touches nothing of the host's side: each case writes through the named writes of ENC, DEC and the response. -/
theorem exec_sameHostSide {i : Instr} {s t : State} (h : exec i s = .next t) : SameHostSide s t := by
  cases exec_cases h <;> simp [SameHostSide]

/-- Settles O44: each channel has its own lemma, by cases on what the command does. -/
theorem commandsOnlyAppendBeats : Obligations.CommandsOnlyAppendBeats := by
  unfold Obligations.CommandsOnlyAppendBeats
  intro i s t h
  obtain ⟨e, he, hlen, hunit⟩ := exec_appends_encOut h
  obtain ⟨d, hd, dlen, dunit⟩ := exec_appends_decOut h
  exact ⟨e, d, he, hd, hlen, dlen, hunit, dunit⟩

/-! ### What has been popped, followed by what a channel holds -/

/-- Both streams of `t` go on where those of `s` end. -/
def StreamsExtend (s t : State) : Prop := encStream s <+: encStream t ∧ decStream s <+: decStream t

/-- A state with the same streams extends them by nothing. -/
theorem StreamsExtend.of_eq {s t : State} (he : encStream t = encStream s) (hd : decStream t = decStream s) :
    StreamsExtend s t := ⟨⟨[], by simp [he]⟩, ⟨[], by simp [hd]⟩⟩

/-- A command appends to the channels and pops nothing. -/
theorem exec_streamsExtend {i : Instr} {s t : State} (h : exec i s = .next t) : StreamsExtend s t := by
  obtain ⟨e, he, -⟩ := exec_appends_encOut h
  obtain ⟨d, hd, -⟩ := exec_appends_decOut h
  obtain ⟨-, hep, hdp, -⟩ := exec_sameHostSide h
  exact ⟨⟨e, by simp [encStream, he, hep]⟩, ⟨d, by simp [decStream, hd, hdp]⟩⟩

/-- A command word runs its command or, being illegal, only responds. -/
theorem executeWord_streamsExtend {w : CmdWord} {s t : State} (h : executeWord w s = .next t) : StreamsExtend s t := by
  rcases executeWord_cases w s with ⟨i, -, hw⟩ | ⟨e, -, hw⟩ <;> rw [hw] at h
  · exact exec_streamsExtend h
  · rw [illegalCommand_eq] at h
    cases h
    exact .of_eq rfl rfl

/-- A pop moves the head beat from the channel to the end of what has been popped, so the two together stay (R51). -/
theorem popEnc_streamsExtend (s : State) : StreamsExtend s s.popEnc := by
  rcases popEnc_cases s with ⟨-, h⟩ | ⟨b, bs, hout, h⟩ <;> rw [h]
  · exact .of_eq rfl rfl
  · exact .of_eq (by simp [encStream, hout]) rfl

theorem popDec_streamsExtend (s : State) : StreamsExtend s s.popDec := by
  rcases popDec_cases s with ⟨-, h⟩ | ⟨b, bs, hout, h⟩ <;> rw [h]
  · exact .of_eq rfl rfl
  · exact .of_eq rfl (by simp [decStream, hout])

/-- Of the host's interactions only reset clears a channel (R54). -/
theorem hostAct_streamsExtend (s : State) {e : HostEvent} (he : e ≠ .reset) : StreamsExtend s (s.hostAct e) := by
  cases e with
  | issue w => exact .of_eq rfl rfl
  | popEnc => exact popEnc_streamsExtend s
  | popDec => exact popDec_streamsExtend s
  | reset => exact absurd rfl he

theorem hostStep_streamsExtend {s : State} (hr : ¬ ∃ es, s.inbox = .reset :: es) : StreamsExtend s s.hostStep := by
  rcases hostStep_cases s with ⟨-, h⟩ | ⟨e, es, hin, h⟩ <;> rw [h]
  · exact .of_eq rfl rfl
  · have he : e ≠ .reset := fun heq => hr ⟨es, heq ▸ hin⟩
    -- the streams do not read the inbox, so those of `s` are those of the state the interaction falls on
    exact hostAct_streamsExtend { s with inbox := es } he

/-! ### Steps -/

/-- The executable test of R50 and the statement of what it tests. -/
theorem overfills_iff (s t : State) :
    s.overfills t = true ↔ ∃ n, s.cfg.outDepth = .finite n ∧
      ((s.encOut.length < t.encOut.length ∧ n < t.encOut.length) ∨
        (s.decOut.length < t.decOut.length ∧ n < t.decOut.length)) := by
  simp only [State.overfills, Bool.or_eq_true, lacksRoom_iff, ← exists_or, ← and_or_left]

/-- A step takes the oldest command, or the block waits and the host acts. -/
theorem step_takes_or_waits {s t : State} (h : step s = .next t) :
    (∃ w u, executeWord w s = .next u ∧ t = u.dropIssued) ∨ (Waiting s ∧ t = s.hostStep) := by
  rcases step_cases h with ⟨w, rest, u, -, hu, -, ht⟩ | ⟨hi, ht⟩ | ⟨w, rest, u, hi, hu, ho, ht⟩
  · exact .inl ⟨w, u, hu, ht⟩
  · exact .inr ⟨.inl hi, ht⟩
  · obtain ⟨n, hd, hroom⟩ := (overfills_iff s u).mp ho
    exact .inr ⟨.inr ⟨w, rest, u, n, hi, hu, hd, hroom⟩, ht⟩

/-- Settles O16: a command taken appends, and while the block waits the host does anything but reset it. -/
theorem beatsStayUntilPoppedOrReset : Obligations.BeatsStayUntilPoppedOrReset := by
  unfold Obligations.BeatsStayUntilPoppedOrReset
  intro s t h hnoReset
  rcases step_takes_or_waits h with ⟨w, u, hu, rfl⟩ | ⟨hw, rfl⟩
  · have hext : StreamsExtend s u := executeWord_streamsExtend hu
    -- taking the command off `issued` changes no field that a stream reads
    exact hext
  · exact hostStep_streamsExtend fun hr => hnoReset ⟨hw, hr⟩

end Sys2Proof.Machine
end

section
/-! The decoder on every word (30_encoding.md R59 to R63): which words it rejects, which words a row of R59 matches, and so
its agreement with the search through the rows. -/

namespace Sys2Proof

/-! ### The fields of a word -/

theorem opField_toNat (w : CmdWord) : (opField w).toNat = w.toNat / 2 ^ 28 := by
  have hw : w.toNat < 2 ^ 32 := w.isLt
  simp only [opField, BitVec.extractLsb'_toNat, Nat.shiftRight_eq_div_pow]
  omega

theorem rsvField_toNat (w : CmdWord) : (rsvField w).toNat = w.toNat / 2 ^ 16 % 2 ^ 12 := by
  simp [rsvField, BitVec.extractLsb'_toNat, Nat.shiftRight_eq_div_pow]

theorem fields_append (w : CmdWord) : opField w ++ rsvField w ++ opdField w = w := by
  have hupper : opField w ++ rsvField w = w.extractLsb' 16 16 :=
    BitVec.extractLsb'_append_extractLsb'_eq_extractLsb' (by decide)
  have hword : w.extractLsb' 16 16 ++ opdField w = w.extractLsb' 0 32 :=
    BitVec.extractLsb'_append_extractLsb'_eq_extractLsb' (by decide)
  rw [hupper, hword, BitVec.extractLsb'_eq_self]

theorem opdBytes_append (w : CmdWord) : opdHigh w ++ opdByte w = opdField w :=
  BitVec.extractLsb'_append_extractLsb'_eq_extractLsb' (by decide)

/-- R57: a word is its three fields. -/
theorem eq_iff_fields (w v : CmdWord) :
    w = v ↔ opField w = opField v ∧ rsvField w = rsvField v ∧ opdField w = opdField v := by
  constructor
  · rintro rfl
    exact ⟨rfl, rfl, rfl⟩
  · rintro ⟨hop, hrsv, hopd⟩
    rw [← fields_append w, hop, hrsv, hopd, fields_append]

theorem opField_and (w m : CmdWord) : opField (w &&& m) = opField w &&& opField m := BitVec.extractLsb'_and
theorem rsvField_and (w m : CmdWord) : rsvField (w &&& m) = rsvField w &&& rsvField m := BitVec.extractLsb'_and
theorem opdField_and (w m : CmdWord) : opdField (w &&& m) = opdField w &&& opdField m := BitVec.extractLsb'_and

/-- The mask of R59 for a byte operand leaves `OPD[15:8]` of the operand. -/
theorem opdField_and_highMask_eq_zero_iff (w : CmdWord) : opdField w &&& 0xFF00 = 0 ↔ opdHigh w = 0 := by
  have hmask : (0xFF00 : Value16) = (0xFF : Byte) ++ (0 : Byte) := rfl
  have hhigh : opdHigh w &&& 0xFF = opdHigh w := BitVec.and_allOnes
  have hzero : (0 : Value16) = (0 : Byte) ++ (0 : Byte) := rfl
  have hlow : opdByte w &&& 0 = 0 := BitVec.and_zero
  rw [← opdBytes_append, hmask, BitVec.and_append, hhigh, hlow, hzero]
  exact BitVec.append_left_inj 0

/-! ### The words the decoder rejects -/

theorem decodeOp_of_not_opLegal {w : CmdWord} (h : opLegal w = false) : decodeOp w = .error .reservedOpcode := by
  have hop : opField w = 0 ∨ opField w = 15 := by
    simpa [opLegal, Decidable.or_iff_not_imp_left] using h
  rcases hop with hop | hop <;> simp [decodeOp, hop]

/-- R60: a reserved opcode is rejected as one, whatever else is wrong with the word. -/
theorem decode_of_not_opLegal {w : CmdWord} (h : opLegal w = false) : decode w = .error .reservedOpcode := by
  unfold decode
  split
  · exact decodeOp_of_not_opLegal h
  · simp [h]

/-- R61: a reserved bit makes a word illegal. -/
theorem decode_of_rsvField_ne_zero {w : CmdWord} (h : rsvField w ≠ 0) : ∃ e, decode w = .error e := by
  rw [decode, if_neg h]
  split
  · exact ⟨_, rfl⟩
  · exact ⟨_, rfl⟩

/-- Settles O5: the three numbers are the fields OP and RSV of the word. -/
theorem reservedWordsDecodeToNoCommand : Obligations.ReservedWordsDecodeToNoCommand := by
  unfold Obligations.ReservedWordsDecodeToNoCommand
  intro w h
  rw [← opField_toNat, ← rsvField_toNat] at h
  rcases h with hop | hop | hrsv
  · exact ⟨_, decode_of_not_opLegal (by simp [opLegal, BitVec.eq_of_toNat_eq (y := 0) hop])⟩
  · exact ⟨_, decode_of_not_opLegal (by simp [opLegal, BitVec.eq_of_toNat_eq (y := 15) hop])⟩
  · exact decode_of_rsvField_ne_zero fun hz => hrsv (by simp [hz])

/-! ### The rows of R59, by their operand shape -/

/-- The row of a command without an operand. -/
def rowNone (op : BitVec 4) (i : Instr) : OpcodeRow := ⟨cmdWord op 0, 0xFFFFFFFF, fun _ => i⟩

/-- The row of a command with a byte operand. -/
def rowByte (op : BitVec 4) (mk : Byte → Instr) : OpcodeRow := ⟨cmdWord op 0, 0xFFFFFF00, fun w => mk (opdByte w)⟩

/-- The row of a command that uses the whole operand. -/
def rowU16 (op : BitVec 4) (mk : Value16 → Instr) : OpcodeRow := ⟨cmdWord op 0, 0xFFFF0000, fun w => mk (opdField w)⟩

/-- The masks and matches of R59 are those of the opcodes of R58 and their operand shapes. -/
theorem opcodeRows_eq : opcodeRows =
    [rowNone 0x1 .encStartBytes, rowNone 0x2 .encStartU16, rowByte 0x3 .encByte, rowU16 0x4 .encU16,
      rowNone 0x5 .encEnd, rowNone 0x6 .encAbort, rowByte 0x7 .lutFwd, rowByte 0x8 .lutRev,
      rowNone 0x9 .decStartBytes, rowNone 0xA .decStartU16, rowByte 0xB .decSym, rowNone 0xC .decEnd,
      rowNone 0xD .decAbort, rowNone 0xE .stat] := rfl

/-- A row of R59 always fixes OP and RSV, and of the operand what its mask holds. -/
theorem matchesWord_iff {op : BitVec 4} {mask : CmdWord} (command : CmdWord → Instr) (w : CmdWord)
    (hop : opField mask = 15) (hrsv : rsvField mask = 0xFFF) :
    OpcodeRow.matchesWord ⟨cmdWord op 0, mask, command⟩ w = true ↔
      opField w = op ∧ rsvField w = 0 ∧ opdField w &&& opdField mask = 0 := by
  have hopAll : opField w &&& 15 = opField w := BitVec.and_allOnes
  have hrsvAll : rsvField w &&& 0xFFF = rsvField w := BitVec.and_allOnes
  simp only [OpcodeRow.matchesWord, beq_iff_eq, eq_iff_fields, opField_and, rsvField_and, opdField_and, hop, hrsv, hopAll,
    hrsvAll, opField_cmdWord, rsvField_cmdWord, opdField_cmdWord]

theorem rowNone_matchesWord (op : BitVec 4) (i : Instr) (w : CmdWord) :
    (rowNone op i).matchesWord w = true ↔ opField w = op ∧ rsvField w = 0 ∧ opdField w = 0 := by
  have hmask : opdField w &&& opdField 0xFFFFFFFF = opdField w := BitVec.and_allOnes
  rw [rowNone, matchesWord_iff _ w rfl rfl, hmask]

theorem rowByte_matchesWord (op : BitVec 4) (mk : Byte → Instr) (w : CmdWord) :
    (rowByte op mk).matchesWord w = true ↔ opField w = op ∧ rsvField w = 0 ∧ opdHigh w = 0 := by
  have hmask : opdField 0xFFFFFF00 = 0xFF00 := rfl
  rw [rowByte, matchesWord_iff _ w rfl rfl, hmask, opdField_and_highMask_eq_zero_iff]

theorem rowU16_matchesWord (op : BitVec 4) (mk : Value16 → Instr) (w : CmdWord) :
    (rowU16 op mk).matchesWord w = true ↔ opField w = op ∧ rsvField w = 0 := by
  have hmask : opdField w &&& opdField 0xFFFF0000 = 0 := BitVec.and_zero
  rw [rowU16, matchesWord_iff _ w rfl rfl]
  simp only [hmask, and_true]

/-! ### The search through the rows -/

/-- What the search of R63 answers at one row. -/
def OpcodeRow.read (r : OpcodeRow) (w : CmdWord) : Option Instr := if r.matchesWord w then some (r.command w) else none

/-- The first row reads the word, or else the rows after it do. -/
theorem findSome_read_cons (r : OpcodeRow) (rows : List OpcodeRow) (w : CmdWord) :
    (r :: rows).findSome? (fun q => q.read w) = (r.read w).or (rows.findSome? (fun q => q.read w)) := by
  cases hr : r.read w <;> simp [hr]

theorem decodeByTable_eq_findSome_read (w : CmdWord) : decodeByTable w = opcodeRows.findSome? (fun r => r.read w) := by
  unfold decodeByTable
  induction opcodeRows with
  | nil => rfl
  | cons r rows ih => cases hm : r.matchesWord w <;> simp [OpcodeRow.read, hm, ih]

/-! A row of the word's opcode reads what the decoder reads there, and a row of another opcode reads nothing. -/

section
variable (op : BitVec 4) (w : CmdWord)

theorem read_rowNone (i : Instr) :
    (rowNone op i).read w = if (opField w).toNat = op.toNat ∧ rsvField w = 0 then (decodeNone w i).toOption else none := by
  simp only [BitVec.toNat_inj, OpcodeRow.read, rowNone_matchesWord, ← and_assoc, ite_and, decodeNone, apply_ite Except.toOption]
  rfl

theorem read_rowByte (mk : Byte → Instr) :
    (rowByte op mk).read w = if (opField w).toNat = op.toNat ∧ rsvField w = 0 then (decodeByte w mk).toOption else none := by
  simp only [BitVec.toNat_inj, OpcodeRow.read, rowByte_matchesWord, ← and_assoc, ite_and, decodeByte, apply_ite Except.toOption]
  rfl

theorem read_rowU16 (mk : Value16 → Instr) :
    (rowU16 op mk).read w = if (opField w).toNat = op.toNat ∧ rsvField w = 0 then some (mk (opdField w)) else none := by
  simp only [BitVec.toNat_inj, OpcodeRow.read, rowU16_matchesWord]
  rfl

end

/-- With a reserved bit set no row reads the word. -/
theorem decodeByTable_of_rsvField_ne_zero {w : CmdWord} (h : rsvField w ≠ 0) : decodeByTable w = none := by
  rw [decodeByTable_eq_findSome_read, opcodeRows_eq]
  simp only [findSome_read_cons, List.findSome?_nil, read_rowNone, read_rowByte, read_rowU16, h, and_false, if_false, Option.or_none]

/-- The opcode map of R58 is the search: of the 14 rows only the one of the word's opcode can read it. -/
theorem decodeByTable_of_rsvField_eq_zero {w : CmdWord} (h : rsvField w = 0) :
    decodeByTable w = (decodeOp w).toOption := by
  have hsearch := decodeByTable_eq_findSome_read w
  simp only [opcodeRows_eq, findSome_read_cons, List.findSome?_nil, read_rowNone, read_rowByte, read_rowU16, h, and_true]
    at hsearch
  unfold decodeOp
  split
  case h_15 =>
    -- a reserved opcode, which no row has
    simp_all [Except.toOption]
  all_goals
    rename_i hop
    simp [hsearch, hop, Except.toOption]

/-- Settles O3: where the reserved bits are 0 both are the opcode map, and elsewhere both answer no command. -/
theorem decoderAgreesWithOpcodeRows : Obligations.DecoderAgreesWithOpcodeRows := by
  unfold Obligations.DecoderAgreesWithOpcodeRows
  intro w
  by_cases hrsv : rsvField w = 0
  · rw [decodeByTable_of_rsvField_eq_zero hrsv, decode, if_pos hrsv]
    cases decodeOp w <;> rfl
  · obtain ⟨e, he⟩ := decode_of_rsvField_ne_zero hrsv
    rw [decodeByTable_of_rsvField_ne_zero hrsv, he]

end Sys2Proof
end

section
/-! The lookups (40_alphabet_lut.md R82, R85, R86): what a byte's value is under either filter, and the words that ask for a
lookup and answer it. -/

namespace Sys2Proof

theorem encode_lutFwd_toNat (v : Byte) : (encode (.lutFwd v)).toNat = 0x70000000 + v.toNat := by
  rw [encode, cmdWord_toNat, byteOpd_toNat]
  rfl

theorem encode_lutRev_toNat (b : Byte) : (encode (.lutRev b)).toNat = 0x80000000 + b.toNat := by
  rw [encode, cmdWord_toNat, byteOpd_toNat]
  rfl

end Sys2Proof

namespace Sys2Proof.Machine

/-! ### The table -/

/-- R79: the table is the string. -/
theorem fwd_eq_symbolByte (d : Digit) : fwd d = symbolByte d.val := by
  revert d; decide

/-- R81: the residue of a symbol modulo 48 is its value. -/
theorem fwd_toNat_mod (d : Digit) : (fwd d).toNat % 48 = d.val := by
  revert d; decide

/-- No two values share a symbol, since a symbol's residue gives its value back. -/
theorem fwd_injective : Function.Injective fwd := by
  intro d e h
  rw [Fin.ext_iff, ← fwd_toNat_mod d, h, fwd_toNat_mod]

/-! ### The reverse lookup -/

/-- A number below 64 and the 6-bit value that stands for it. -/
theorem ofNat_eq_value6_iff {n : Nat} (hn : n < 64) (x : Value6) : BitVec.ofNat 6 n = x ↔ x.toNat = n := by
  rw [← BitVec.toNat_inj, BitVec.toNat_ofNat, Nat.mod_eq_of_lt hn, eq_comm]

theorem revModular_eq_some_iff (b : Byte) (x : Value6) :
    revModular b = some x ↔ 32 < b.toNat ∧ b.toNat < 127 ∧ b.toNat % 48 < 41 ∧ x.toNat = b.toNat % 48 := by
  have hvalue : BitVec.ofNat 6 (b.toNat % 48) = x ↔ x.toNat = b.toNat % 48 := ofNat_eq_value6_iff (by omega) x
  simp only [revModular, Option.ite_none_right_eq_some, Option.some.injEq, hvalue, and_assoc]

/-- The search of the table finds the value of a symbol: it finds some value with that symbol, and there is only one. -/
theorem find_fwd_eq_some_iff (b : Byte) (d : Digit) :
    (List.finRange 41).find? (fun v => fwd v == b) = some d ↔ fwd d = b := by
  constructor
  · intro h
    simpa using List.find?_some h
  · rintro rfl
    obtain ⟨e, he⟩ : ∃ e, (List.finRange 41).find? (fun v => fwd v == fwd d) = some e :=
      Option.isSome_iff_exists.mp (List.find?_isSome.mpr ⟨d, List.mem_finRange d, beq_self_eq_true _⟩)
    have hsymbol : fwd e = fwd d := by simpa using List.find?_some he
    rw [he, fwd_injective hsymbol]

theorem revStrict_eq_some_iff (b : Byte) (x : Value6) :
    revStrict b = some x ↔ ∃ d : Digit, fwd d = b ∧ x.toNat = d.val := by
  have hvalue (d : Digit) : BitVec.ofNat 6 d.val = x ↔ x.toNat = d.val := ofNat_eq_value6_iff (by omega) x
  simp only [revStrict, Option.map_eq_some_iff, find_fwd_eq_some_iff, hvalue]

/-- Settles O22: MODULAR is its own test, and STRICT the search of the table, whose rows are the positions in the string. -/
theorem reverseLookupIsR82 : Obligations.ReverseLookupIsR82 := by
  unfold Obligations.ReverseLookupIsR82
  intro b x
  refine ⟨revModular_eq_some_iff b x, (revStrict_eq_some_iff b x).trans ⟨?_, ?_⟩⟩
  · rintro ⟨d, hsymbol, hvalue⟩
    exact ⟨d.val, by omega, fwd_eq_symbolByte d ▸ hsymbol, hvalue⟩
  · rintro ⟨v, hv, hsymbol, hvalue⟩
    exact ⟨⟨v, by omega⟩, (fwd_eq_symbolByte _).trans hsymbol, hvalue⟩

/-! ### The commands -/

/-- Bits put side by side add, the upper ones scaled by the width of the lower ones. -/
theorem toNat_append_eq_add {n m : Nat} (hi : BitVec n) (lo : BitVec m) :
    (hi ++ lo).toNat = 2 ^ m * hi.toNat + lo.toNat := by
  rw [BitVec.toNat_append, ← Nat.shiftLeft_add_eq_or_of_lt lo.isLt, Nat.shiftLeft_eq, mul_comm]

/-- R64: a successful lookup sets RVALID, bit 12, and RDATA, bits 11:4, and no other bit. -/
theorem word_lookup (d : Byte) :
    Response.word { status := .ok, rdata := d, rvalid := true } = BitVec.ofNat 64 (4096 + 16 * d.toNat) := by
  have hd : d.toNat < 256 := d.isLt
  apply BitVec.eq_of_toNat_eq
  simp only [Response.word, toNat_append_eq_add, Status.code, ErrKind.code, BitVec.ofBool_true, BitVec.ofNat_eq_ofNat,
    BitVec.toNat_ofNat]
  omega

theorem exec_lutFwd (v : Byte) (s : State) : exec (.lutFwd v) s = execLutFwd v s := rfl

theorem exec_lutRev (b : Byte) (s : State) : exec (.lutRev b) s = execLutRev b s := rfl

/-- Settles O24: the rule of LUT_FWD splits the indices at 41. -/
theorem lutFwdAnswersTheSymbol : Obligations.LutFwdAnswersTheSymbol := by
  unfold Obligations.LutFwdAnswersTheSymbol
  intro v s
  refine ⟨encode_lutFwd_toNat v, fun hv => ?_, fun hv => ?_⟩
  · rcases execLutFwd_cases v s with ⟨hlt, h⟩ | ⟨hge, -⟩
    · rw [exec_lutFwd, h, complete_eq, State.respond, word_lookup, fwd_eq_symbolByte]
    · omega
  · rcases execLutFwd_cases v s with ⟨hlt, -⟩ | ⟨-, h⟩
    · omega
    · rw [exec_lutFwd, h, illegalOperand_eq, State.respond, word_illegalOperand]
      rfl

/-- Settles O25: the rule of LUT_REV splits the bytes by the filter. -/
theorem lutRevAnswersTheValue : Obligations.LutRevAnswersTheValue := by
  unfold Obligations.LutRevAnswersTheValue
  intro b s
  refine ⟨encode_lutRev_toNat b, fun x hx => ?_, fun hx => ?_⟩
  · have hdata : (x.setWidth 8).toNat = x.toNat := BitVec.toNat_setWidth_of_le (by decide)
    rcases execLutRev_cases b s with ⟨y, hy, h⟩ | ⟨hnone, -⟩
    · obtain rfl : y = x := Option.some.inj (hy.symm.trans hx)
      rw [exec_lutRev, h, complete_eq, State.respond, word_lookup, hdata]
    · cases hnone.symm.trans hx
  · rcases execLutRev_cases b s with ⟨y, hy, -⟩ | ⟨-, h⟩
    · cases hx.symm.trans hy
    · rw [exec_lutRev, h, ok_eq, State.respond, word_ok]
      rfl

end Sys2Proof.Machine
end

section
/-! The encoder's commands (41_encoder.md R88 to R96): the words that carry them, the digits they emit as symbols of the
string, and the next state of each case of their rules. -/

namespace Sys2Proof

theorem encode_encByte_toNat (b : Byte) : (encode (.encByte b)).toNat = 0x30000000 + b.toNat := by
  rw [encode, cmdWord_toNat, byteOpd_toNat]
  rfl

theorem encode_encU16_toNat (u : Value16) : (encode (.encU16 u)).toNat = 0x40000000 + u.toNat := by
  rw [encode, cmdWord_toNat]
  rfl

end Sys2Proof

namespace Sys2Proof.Machine

/-! ### The digits and their symbols -/

/-- A pair is big-endian (20_memory.md R42). -/
theorem bytePair_toNat (first second : Byte) : (bytePair first second).toNat = 256 * first.toNat + second.toNat :=
  toNat_append_eq_add first second

/-- R88: the symbols of a value stand at its base-41 digits, low first. The high digit stays below 39 because 39 · 41² is
above every 16-bit value. -/
theorem tripleSymbols_spell (u : Value16) : ∃ d0 d1 d2 : Nat, d0 ≤ 40 ∧ d1 ≤ 40 ∧ d2 ≤ 38 ∧
    u.toNat = d0 + 41 * d1 + 1681 * d2 ∧ tripleSymbols u = [symbolByte d0, symbolByte d1, symbolByte d2] := by
  rcases hd : tripleDigits u with ⟨low, mid, high⟩
  have hvalue : u.toNat = low.val + 41 * mid.val + 1681 * high.val := by simpa only [hd] using tripleDigits_value u
  have hu : u.toNat < 65536 := u.isLt
  refine ⟨low, mid, high, by omega, by omega, by omega, hvalue, ?_⟩
  simp only [tripleSymbols, hd, fwd_eq_symbolByte]

/-- R89: the symbols of a trailing byte stand at its base-41 digits, low first, a high digit of 0 left out. -/
theorem tailSymbols_spell (b : Byte) : ∃ lo hi : Nat, lo ≤ 40 ∧ hi ≤ 6 ∧ b.toNat = lo + 41 * hi ∧
    tailSymbols b = if 0 < hi then [symbolByte lo, symbolByte hi] else [symbolByte lo] := by
  have hb : b.toNat < 256 := b.isLt
  refine ⟨b.toNat % 41, b.toNat / 41, by omega, by omega, (Nat.mod_add_div _ _).symm, ?_⟩
  simp only [tailSymbols, fwd_eq_symbolByte, gt_iff_lt]

/-! ### How a command of the encoder answers -/

/-- OK is the response word 0 (30_encoding.md R65). -/
theorem ok_eq_next (s : State) : s.ok = .next { s with responses := s.responses ++ [0] } := by
  rw [ok_eq, State.respond, word_ok]
  rfl

/-- ILLEGAL_SEQUENCE is the response word 5 and changes nothing else (30_encoding.md R65). -/
theorem illegalSequence_eq_next (s : State) : s.illegalSequence = .next { s with responses := s.responses ++ [5] } := by
  rw [illegalSequence_eq, State.respond, word_illegalSequence]
  rfl

theorem exec_encStartBytes (s : State) : exec .encStartBytes s = (s.openEnc .bytes).ok := rfl

theorem exec_encStartU16 (s : State) : exec .encStartU16 s = (s.openEnc .u16).ok := rfl

theorem exec_encByte (b : Byte) (s : State) : exec (.encByte b) s = execEncByte b s := rfl

theorem exec_encU16 (u : Value16) (s : State) : exec (.encU16 u) s = execEncU16 u s := rfl

theorem exec_encEnd (s : State) : exec .encEnd s = execEncEnd s := rfl

theorem exec_encAbort (s : State) : exec .encAbort s = s.closeEnc.ok := rfl

section
variable {b : Byte} {u : Value16} {s : State}

theorem exec_encByte_of_not_bytes (hm : s.encMode ≠ .bytes) : exec (.encByte b) s = s.illegalSequence := by
  simpa [exec_encByte, hm] using execEncByte_cases b s

theorem exec_encByte_of_not_held (hm : s.encMode = .bytes) (hv : s.encHv = false) :
    exec (.encByte b) s = (s.holdByte b).ok := by
  simpa [exec_encByte, hm, hv] using execEncByte_cases b s

theorem exec_encByte_of_held (hm : s.encMode = .bytes) (hv : s.encHv = true) :
    exec (.encByte b) s = ((s.emitEnc (tripleSymbols (bytePair s.encHb b))).releaseByte).ok := by
  simpa [exec_encByte, hm, hv] using execEncByte_cases b s

theorem exec_encU16_of_not_u16 (hm : s.encMode ≠ .u16) : exec (.encU16 u) s = s.illegalSequence := by
  simpa [exec_encU16, hm] using execEncU16_cases u s

theorem exec_encU16_of_u16 (hm : s.encMode = .u16) : exec (.encU16 u) s = (s.emitEnc (tripleSymbols u)).ok := by
  simpa [exec_encU16, hm] using execEncU16_cases u s

theorem exec_encEnd_of_idle (hm : s.encMode = .idle) : exec .encEnd s = s.illegalSequence := by
  simpa [exec_encEnd, hm] using execEncEnd_cases s

theorem exec_encEnd_of_held (hm : s.encMode = .bytes) (hv : s.encHv = true) :
    exec .encEnd s = ((s.emitEnc (tailSymbols s.encHb)).closeEnc).ok := by
  simpa [exec_encEnd, hm, hv] using execEncEnd_cases s

theorem exec_encEnd_of_not_held (hm : s.encMode ≠ .idle) (hv : ¬ (s.encMode = .bytes ∧ s.encHv = true)) :
    exec .encEnd s = s.closeEnc.ok := by
  rcases execEncEnd_cases s with ⟨hidle, -⟩ | ⟨hbytes, hheld, -⟩ | ⟨-, -, h⟩
  · exact absurd hidle hm
  · exact absurd ⟨hbytes, hheld⟩ hv
  · exact h

end

/-! ### The statements -/

/-- Settles O27: the rule's three cases; the pair that the second byte completes is spelled by its digits. -/
theorem encBytePairsBytes : Obligations.EncBytePairsBytes := by
  unfold Obligations.EncBytePairsBytes
  intro b s
  refine ⟨encode_encByte_toNat b, fun hm => ?_, fun hm hv => ?_, fun hm hv => ?_⟩
  · rw [exec_encByte_of_not_bytes hm, illegalSequence_eq_next]
  · rw [exec_encByte_of_not_held hm hv, ok_eq_next]
    rfl
  · obtain ⟨d0, d1, d2, h0, h1, h2, hvalue, hsymbols⟩ := tripleSymbols_spell (bytePair s.encHb b)
    refine ⟨d0, d1, d2, h0, h1, h2, (bytePair_toNat s.encHb b).symm.trans hvalue, ?_⟩
    rw [exec_encByte_of_held hm hv, ok_eq_next, hsymbols]
    rfl

/-- Settles O29: the rule's three cases; a held byte is spelled by its digits. -/
theorem encEndEmitsTheRemainder : Obligations.EncEndEmitsTheRemainder := by
  unfold Obligations.EncEndEmitsTheRemainder
  refine ⟨rfl, fun s => ⟨fun hm => ?_, fun hm hv => ?_, fun hm hv => ?_⟩⟩
  · rw [exec_encEnd_of_idle hm, illegalSequence_eq_next]
  · obtain ⟨lo, hi, hlo, hhi, hvalue, hsymbols⟩ := tailSymbols_spell s.encHb
    refine ⟨lo, hi, hlo, hhi, hvalue, ?_⟩
    rw [exec_encEnd_of_held hm hv, ok_eq_next, hsymbols]
    rfl
  · rw [exec_encEnd_of_not_held hm hv, ok_eq_next]
    rfl

/-- Settles O26: both commands open a session whatever the mode was, and answer OK. -/
theorem encStartOpensASession : Obligations.EncStartOpensASession := by
  unfold Obligations.EncStartOpensASession
  refine ⟨rfl, rfl, fun s => ⟨?_, ?_⟩⟩
  · rw [exec_encStartBytes, ok_eq_next]
    rfl
  · rw [exec_encStartU16, ok_eq_next]
    rfl

/-- Settles O28: the rule's two cases; the value is spelled by its digits. -/
theorem encU16EmitsThreeSymbols : Obligations.EncU16EmitsThreeSymbols := by
  unfold Obligations.EncU16EmitsThreeSymbols
  intro u s
  refine ⟨encode_encU16_toNat u, fun hm => ?_, fun hm => ?_⟩
  · rw [exec_encU16_of_not_u16 hm, illegalSequence_eq_next]
  · obtain ⟨d0, d1, d2, h0, h1, h2, hvalue, hsymbols⟩ := tripleSymbols_spell u
    refine ⟨d0, d1, d2, h0, h1, h2, hvalue, ?_⟩
    rw [exec_encU16_of_u16 hm, ok_eq_next, hsymbols]
    rfl

/-- Settles O30: the session closes whatever the mode was, and the answer is OK. -/
theorem encAbortDropsTheSession : Obligations.EncAbortDropsTheSession := by
  unfold Obligations.EncAbortDropsTheSession
  refine ⟨rfl, fun s => ?_⟩
  rw [exec_encAbort, ok_eq_next]
  rfl

end Sys2Proof.Machine
end

section
/-! The decoder's session commands (42_decoder.md R101 to R111): the beats of a triplet as numbers, the response of a data
error and the state it leads to, and the next state of each case of their rules. -/

namespace Sys2Proof

theorem encode_decSym_toNat (b : Byte) : (encode (.decSym b)).toNat = 0xB0000000 + b.toNat := by
  rw [encode, cmdWord_toNat, byteOpd_toNat]
  rfl

end Sys2Proof

namespace Sys2Proof.Machine

/-! ### The beats (30_encoding.md R71) -/

theorem narrowBeat_toNat (b : Byte) : (narrowBeat b).toNat = b.toNat :=
  (toNat_append_eq_add 0 b).trans (Nat.zero_add _)

theorem wideBeat_toNat (u : Value16) : (wideBeat u).toNat = 65536 + u.toNat :=
  toNat_append_eq_add 1 u

/-- A number below 256 as an octet's beat. -/
theorem narrowBeat_ofNat {n : Nat} (hn : n < 256) : narrowBeat (BitVec.ofNat 8 n) = BitVec.ofNat 17 n := by
  apply BitVec.eq_of_toNat_eq
  simp only [narrowBeat_toNat, BitVec.toNat_ofNat]
  omega

/-- The two octets of a triplet value are its quotient and its remainder by 256, high first (R102). -/
theorem byteBeats_eq {u : Nat} (hu : u < 65536) :
    byteBeats u = [BitVec.ofNat 17 (u / 256), BitVec.ofNat 17 (u % 256)] := by
  have hhigh : u >>> 8 = u / 256 := Nat.shiftRight_eq_div_pow u 8
  have hlow : u &&& 0xFF = u % 256 := Nat.and_two_pow_sub_one_eq_mod u 8
  rw [byteBeats, hhigh, hlow, narrowBeat_ofNat (by omega), narrowBeat_ofNat (by omega)]

/-- The wide beat of a triplet value has WIDE, bit 16, above the value (R102). -/
theorem valueBeats_eq {u : Nat} (hu : u < 65536) : valueBeats u = [BitVec.ofNat 17 (65536 + u)] := by
  have hbeat : wideBeat (BitVec.ofNat 16 u) = BitVec.ofNat 17 (65536 + u) := by
    apply BitVec.eq_of_toNat_eq
    simp only [wideBeat_toNat, BitVec.toNat_ofNat]
    omega
  rw [valueBeats, hbeat]

/-! ### The response of a data error (30_encoding.md R64, R67) -/

theorem statusField_word (r : Response) : statusField r.word = r.status.code := by
  simp only [statusField, Response.word, BitVec.extractLsb'_append_eq_right]

/-- R67: the kinds are numbered as the statuses that report them. -/
theorem status_code_toNat (k : ErrKind) : k.status.code.toNat = k.code.toNat := by
  cases k <;> rfl

theorem word_error (k : ErrKind) (value : BitVec 17) (limit : BitVec 16) :
    Response.word { status := k.status, errKind := k, errLimit := limit, errValue := value } =
      errorWord k.code.toNat value.toNat limit.toNat := by
  have hk : k.code.toNat < 4 := k.code.isLt
  have hvalue : value.toNat < 131072 := value.isLt
  have hlimit : limit.toNat < 65536 := limit.isLt
  apply BitVec.eq_of_toNat_eq
  simp only [Response.word, errorWord, toNat_append_eq_add, status_code_toNat, BitVec.ofBool_false, BitVec.ofNat_eq_ofNat,
    BitVec.toNat_ofNat]
  omega

/-- R111, for a value and a limit that fit in their fields. -/
theorem raiseError_eq_next (s : State) (k : ErrKind) {value limit : Nat} (hvalue : value < 2 ^ 17) (hlimit : limit < 2 ^ 16) :
    s.raiseError k value limit = .next
      { s with decMode := .error, decCnt := 0, decEk := k, decEv := BitVec.ofNat 17 value, decEl := BitVec.ofNat 16 limit,
               responses := s.responses ++ [errorWord k.code.toNat value limit] } := by
  rw [raiseError_eq, State.respond, word_error, BitVec.toNat_ofNat, BitVec.toNat_ofNat, Nat.mod_eq_of_lt hvalue,
    Nat.mod_eq_of_lt hlimit]
  rfl

/-- A command raises a data error, being one of the two that can, or answers with a status of another kind (R111, R142). -/
theorem exec_raises_or_answers {i : Instr} {s t : State} (h : exec i s = .next t) :
    ((i = .decEnd ∨ ∃ b, i = .decSym b) ∧ ∃ k value limit, s.raiseError k value limit = .next t) ∨
    ∃ r : Response, t.responses = s.responses ++ [r.word] ∧
      (r.status = .ok ∨ r.status = .illegalSequence ∨ r.status = .illegalOperand) := by
  cases exec_cases h with
  | decSymOverflow b x hm hr hc hu => exact .inl ⟨.inr ⟨b, rfl⟩, .overflow, _, _, rfl⟩
  | decEndUnderflow hm hc hu => exact .inl ⟨.inl rfl, .underflow, _, _, rfl⟩
  | decEndOverflow hm hc hu => exact .inl ⟨.inl rfl, .overflow, _, _, rfl⟩
  | decEndContract hm hc => exact .inl ⟨.inl rfl, .contract, _, _, rfl⟩
  | _ => exact .inr ⟨_, rfl, by simp⟩

/-! ### How a command of the decoder answers -/

theorem exec_decStartBytes (s : State) : exec .decStartBytes s = (s.openDec .bytes).ok := rfl

theorem exec_decStartU16 (s : State) : exec .decStartU16 s = (s.openDec .u16).ok := rfl

theorem exec_decSym (b : Byte) (s : State) : exec (.decSym b) s = execDecSym b s := rfl

theorem exec_decAbort (s : State) : exec .decAbort s = (s.leaveError .idle).ok := rfl

section
variable {b : Byte} {x : Value6} {s : State}

theorem exec_decSym_of_not_open (hm : ¬ (s.decMode = .bytes ∨ s.decMode = .u16)) :
    exec (.decSym b) s = s.illegalSequence := by
  rcases execDecSym_cases b s with ⟨-, h⟩ | ⟨hopen, -⟩ | ⟨hopen, -⟩
  · exact h
  · exact absurd hopen hm
  · exact absurd hopen hm

theorem exec_decSym_of_rejected (hm : s.decMode = .bytes ∨ s.decMode = .u16) (hr : rev s.cfg.revFilter b = none) :
    exec (.decSym b) s = s.ok := by
  rcases hm with hm | hm <;> simpa [exec_decSym, hm, hr] using execDecSym_cases b s

theorem exec_decSym_of_accepted (hm : s.decMode = .bytes ∨ s.decMode = .u16) (hr : rev s.cfg.revFilter b = some x) :
    exec (.decSym b) s = acceptValue x s := by
  rcases hm with hm | hm <;> simpa [exec_decSym, hm, hr] using execDecSym_cases b s

theorem acceptValue_of_first (hc : s.decCnt = 0) : acceptValue x s = (s.bufferFirst x).ok := by
  simpa [hc] using acceptValue_cases x s

theorem acceptValue_of_second (hc : s.decCnt = 1) : acceptValue x s = (s.bufferSecond x).ok := by
  simpa [hc] using acceptValue_cases x s

theorem acceptValue_of_third (hc : s.decCnt = 2) : acceptValue x s = completeTriplet x s := by
  simpa [hc] using acceptValue_cases x s

theorem completeTriplet_of_overflow (hu : 65536 ≤ tripletValue s.decV0 s.decV1 x) :
    completeTriplet x s = s.raiseError .overflow (tripletValue s.decV0 s.decV1 x) 65535 := by
  simpa [hu, hu.not_gt] using completeTriplet_cases x s

theorem completeTriplet_of_bytes (hu : tripletValue s.decV0 s.decV1 x < 65536) (hm : s.decMode = .bytes) :
    completeTriplet x s = (s.clearGroup.emitDec (byteBeats (tripletValue s.decV0 s.decV1 x))).ok := by
  simpa [hu, hu.not_ge, hm] using completeTriplet_cases x s

theorem completeTriplet_of_u16 (hu : tripletValue s.decV0 s.decV1 x < 65536) (hm : s.decMode = .u16) :
    completeTriplet x s = (s.clearGroup.emitDec (valueBeats (tripletValue s.decV0 s.decV1 x))).ok := by
  simpa [hu, hu.not_ge, hm] using completeTriplet_cases x s

end

/-! ### The statements -/

/-- Settles O32: the mode, the filter and the count choose the rule's case, and the triplet value is the sum in the
statement. -/
theorem decSymGathersTriplets : Obligations.DecSymGathersTriplets := by
  unfold Obligations.DecSymGathersTriplets
  intro b s
  refine ⟨encode_decSym_toNat b, fun hbytes hu16 => ?_, fun hm => ⟨fun hr => ?_, fun x u hr hu => ?_⟩⟩
  · rw [exec_decSym_of_not_open (not_or.mpr ⟨hbytes, hu16⟩), illegalSequence_eq_next]
  · rw [exec_decSym_of_rejected hm hr, ok_eq_next]
  · obtain rfl : u = tripletValue s.decV0 s.decV1 x := hu.trans (tripletValue_eq _ _ _).symm
    rw [exec_decSym_of_accepted hm hr]
    refine ⟨fun hc => ?_, fun hc => ?_, fun hc hover => ?_, fun hc hfits hbytes => ?_, fun hc hfits hu16 => ?_⟩
    · rw [acceptValue_of_first hc, ok_eq_next]
      rfl
    · rw [acceptValue_of_second hc, ok_eq_next]
      rfl
    · rw [acceptValue_of_third hc, completeTriplet_of_overflow hover,
        raiseError_eq_next s .overflow (tripletValue_lt _ _ _) (by decide)]
      rfl
    · rw [acceptValue_of_third hc, completeTriplet_of_bytes hfits hbytes, byteBeats_eq hfits, ok_eq_next]
      rfl
    · rw [acceptValue_of_third hc, completeTriplet_of_u16 hfits hu16, valueBeats_eq hfits, ok_eq_next]
      rfl

/-- Settles O45: the three statuses are those of the commands that raise a data error, and every other answer has another
status. -/
theorem dataErrorsEnterTheErrorMode : Obligations.DataErrorsEnterTheErrorMode := by
  unfold Obligations.DataErrorsEnterTheErrorMode
  intro i s t w h hw hlow hhigh
  rcases exec_raises_or_answers h with ⟨hi, k, value, limit, hraise⟩ | ⟨r, hr, hstatus⟩
  · rw [raiseError_eq] at hraise
    cases hraise
    obtain rfl : w = Response.word _ := by simpa using hw.symm
    refine ⟨hi, rfl, rfl, rfl, rfl, ?_, word_error k _ _⟩
    rw [statusField_word, status_code_toNat]
    rfl
  · obtain rfl : w = r.word := by simpa [hr] using hw.symm
    rw [statusField_word] at hlow hhigh
    rcases hstatus with hs | hs | hs <;> simp [hs, Status.code] at hlow hhigh

/-- Settles O31: both commands open a session whatever the mode was, and answer OK. -/
theorem decStartOpensASession : Obligations.DecStartOpensASession := by
  unfold Obligations.DecStartOpensASession
  refine ⟨rfl, rfl, fun s => ⟨?_, ?_⟩⟩
  · rw [exec_decStartBytes, ok_eq_next]
    rfl
  · rw [exec_decStartU16, ok_eq_next]
    rfl

/-- Settles O35: the session closes and the record is cleared whatever the mode was, and the answer is OK. -/
theorem decAbortDropsTheSession : Obligations.DecAbortDropsTheSession := by
  unfold Obligations.DecAbortDropsTheSession
  refine ⟨rfl, fun s => ?_⟩
  rw [exec_decAbort, ok_eq_next]
  rfl

end Sys2Proof.Machine
end

section
/-! Control and functions (43_control_and_functions.md R118, R124 to R127): the response of STAT, and the round trips. Both
round trips rest on two facts: either filter takes a digit's symbol back to the digit, and the digits of a group spell the
group's value. So a triplet of symbols in front of a stream decodes to its value in front of what the stream decodes to. -/

namespace Sys2Proof.Machine

/-! ### STAT -/

/-- R68: the modes, the held-byte flag and the count as a number. -/
theorem statRdata_toNat (s : State) : (statRdata s).toNat =
    s.encMode.code.toNat + 4 * s.encHv.toNat + 8 * s.decMode.code.toNat + 32 * s.decCnt.val := by
  have hcnt : s.decCnt.val < 3 := s.decCnt.isLt
  simp only [statRdata, toNat_append_eq_add, BitVec.toNat_ofBool, BitVec.ofNat_eq_ofNat, BitVec.toNat_ofNat]
  omega

/-- R64: a response of status OK that sets RVALID, bit 12, and gives an error record in bits 48:13. -/
theorem word_valid_record (d : Byte) (k : ErrKind) (limit : BitVec 16) (value : BitVec 17) :
    Response.word { status := .ok, rdata := d, rvalid := true, errKind := k, errLimit := limit, errValue := value } =
      BitVec.ofNat 64
        (4096 + 16 * d.toNat + 8192 * k.code.toNat + 65536 * limit.toNat + 4294967296 * value.toNat) := by
  have hd : d.toNat < 256 := d.isLt
  have hk : k.code.toNat < 4 := k.code.isLt
  have hlimit : limit.toNat < 65536 := limit.isLt
  have hvalue : value.toNat < 131072 := value.isLt
  apply BitVec.eq_of_toNat_eq
  simp only [Response.word, toNat_append_eq_add, Status.code, BitVec.ofBool_true, BitVec.ofNat_eq_ofNat, BitVec.toNat_ofNat]
  omega

theorem exec_stat (s : State) : exec .stat s = execStat s := rfl

/-- Settles O37: STAT only responds, and its response word is R64's sum with RDATA as R68 packs it. -/
theorem statAnswersTheSessionState : Obligations.StatAnswersTheSessionState := by
  unfold Obligations.StatAnswersTheSessionState
  refine ⟨rfl, fun s => ?_⟩
  rw [exec_stat, execStat, complete_eq, State.respond, word_valid_record, statRdata_toNat]

/-! ### The filter on symbols -/

/-- A digit as the filtered value the decoder holds. -/
def digitValue (d : Digit) : Value6 := BitVec.ofNat 6 d.val

theorem digitValue_toNat (d : Digit) : (digitValue d).toNat = d.val := by
  have hd : d.val < 41 := d.isLt
  rw [digitValue, BitVec.toNat_ofNat, Nat.mod_eq_of_lt (by omega)]

/-- R79: every symbol is a printable byte, within the bounds of the MODULAR filter. -/
theorem fwd_printable (d : Digit) : 32 < (fwd d).toNat ∧ (fwd d).toNat < 127 := by
  revert d; decide

/-- Either filter takes the symbol of a digit back to the digit (R83). -/
theorem rev_fwd (f : RevFilter) (d : Digit) : rev f (fwd d) = some (digitValue d) := by
  cases f with
  | modular =>
    obtain ⟨hlow, hhigh⟩ := fwd_printable d
    refine (revModular_eq_some_iff _ _).mpr ⟨hlow, hhigh, ?_⟩
    rw [fwd_toNat_mod, digitValue_toNat]
    exact ⟨d.isLt, rfl⟩
  | strict => exact (revStrict_eq_some_iff _ _).mpr ⟨d, rfl, digitValue_toNat d⟩

theorem filterBytes_append (f : RevFilter) (bs cs : List Byte) :
    filterBytes f (bs ++ cs) = filterBytes f bs ++ filterBytes f cs :=
  List.filterMap_append

/-- The filter keeps every symbol. -/
theorem filterBytes_map_fwd (f : RevFilter) (ds : List Digit) : filterBytes f (ds.map fwd) = ds.map digitValue := by
  induction ds with
  | nil => rfl
  | cons d ds ih =>
    rw [List.map_cons, filterBytes, List.filterMap_cons_some (rev_fwd f d), ← filterBytes, ih, List.map_cons]

/-! ### A triplet in front of a stream -/

/-- What the filter leaves of a value's three symbols is a triplet of that value (R88, R101). -/
theorem filterBytes_tripleSymbols (f : RevFilter) (u : Value16) : ∃ v0 v1 v2 : Value6,
    filterBytes f (tripleSymbols u) = [v0, v1, v2] ∧ tripletValue v0 v1 v2 = u.toNat := by
  rcases hd : tripleDigits u with ⟨low, mid, high⟩
  refine ⟨digitValue low, digitValue mid, digitValue high, ?_, ?_⟩
  · have hsymbols : tripleSymbols u = [low, mid, high].map fwd := by simp only [tripleSymbols, hd, List.map]
    rw [hsymbols, filterBytes_map_fwd]
    rfl
  · simp only [tripletValue_eq, digitValue_toNat, tripleDigits_value u, hd]

/-- A triplet that does not overflow gives its quotient and its remainder by 256 (R102). -/
theorem decodeByteGroups_triplet {v0 v1 v2 : Value6} (hu : tripletValue v0 v1 v2 < 65536) (rest : List Value6) :
    decodeByteGroups (v0 :: v1 :: v2 :: rest) = (decodeByteGroups rest).prepend
      [BitVec.ofNat 8 (tripletValue v0 v1 v2 / 256), BitVec.ofNat 8 (tripletValue v0 v1 v2 % 256)] := by
  have hhigh : tripletValue v0 v1 v2 >>> 8 = tripletValue v0 v1 v2 / 256 := Nat.shiftRight_eq_div_pow _ 8
  have hlow : tripletValue v0 v1 v2 &&& 0xFF = tripletValue v0 v1 v2 % 256 := Nat.and_two_pow_sub_one_eq_mod _ 8
  rw [decodeByteGroups, if_neg hu.not_ge, hhigh, hlow]

theorem decodeU16Groups_triplet {v0 v1 v2 : Value6} (hu : tripletValue v0 v1 v2 < 65536) (rest : List Value6) :
    decodeU16Groups (v0 :: v1 :: v2 :: rest) =
      (decodeU16Groups rest).prepend [BitVec.ofNat 16 (tripletValue v0 v1 v2)] := by
  rw [decodeU16Groups, if_neg hu.not_ge]

/-- A pair is its two bytes again, high first (20_memory.md R42, R43). -/
theorem bytePair_octets (first second : Byte) :
    BitVec.ofNat 8 ((bytePair first second).toNat / 256) = first ∧
    BitVec.ofNat 8 ((bytePair first second).toNat % 256) = second := by
  have hfirst : first.toNat < 256 := first.isLt
  have hsecond : second.toNat < 256 := second.isLt
  rw [bytePair_toNat]
  constructor <;> apply BitVec.eq_of_toNat_eq <;> rw [BitVec.toNat_ofNat] <;> omega

theorem decodeBytes_tripleSymbols_append (f : RevFilter) (b0 b1 : Byte) (rest : List Byte) :
    decodeBytes f (tripleSymbols (bytePair b0 b1) ++ rest) = (decodeBytes f rest).prepend [b0, b1] := by
  obtain ⟨v0, v1, v2, hfilter, hvalue⟩ := filterBytes_tripleSymbols f (bytePair b0 b1)
  obtain ⟨hb0, hb1⟩ := bytePair_octets b0 b1
  have hu : tripletValue v0 v1 v2 < 65536 := hvalue ▸ (bytePair b0 b1).isLt
  calc decodeBytes f (tripleSymbols (bytePair b0 b1) ++ rest)
      = decodeByteGroups (v0 :: v1 :: v2 :: filterBytes f rest) := by
        rw [decodeBytes, filterBytes_append, hfilter]
        rfl
    _ = (decodeBytes f rest).prepend [b0, b1] := by
        rw [decodeByteGroups_triplet hu, hvalue, hb0, hb1, decodeBytes]

theorem decodeU16_tripleSymbols_append (f : RevFilter) (u : Value16) (rest : List Byte) :
    decodeU16 f (tripleSymbols u ++ rest) = (decodeU16 f rest).prepend [u] := by
  obtain ⟨v0, v1, v2, hfilter, hvalue⟩ := filterBytes_tripleSymbols f u
  have hu : tripletValue v0 v1 v2 < 65536 := hvalue ▸ u.isLt
  calc decodeU16 f (tripleSymbols u ++ rest)
      = decodeU16Groups (v0 :: v1 :: v2 :: filterBytes f rest) := by
        rw [decodeU16, filterBytes_append, hfilter]
        rfl
    _ = (decodeU16 f rest).prepend [u] := by
        rw [decodeU16Groups_triplet hu, hvalue, BitVec.ofNat_toNat, BitVec.setWidth_eq, decodeU16]

/-! ### The trailing byte -/

/-- R89: a byte below 41 is one symbol. -/
theorem tailSymbols_of_digit (d : Digit) : tailSymbols (BitVec.ofNat 8 d.val) = [fwd d] := by
  have hd : d.val < 41 := d.isLt
  have hbyte : (BitVec.ofNat 8 d.val).toNat = d.val := by
    rw [BitVec.toNat_ofNat, Nat.mod_eq_of_lt (by omega)]
  have hhi : ¬ 0 < d.val / 41 := by omega
  simp only [tailSymbols, hbyte, gt_iff_lt, if_neg hhi, Nat.mod_eq_of_lt hd]

/-- R89: a byte of 41 or above is two symbols, its digits low first, and its high digit is not 0. -/
theorem tailSymbols_of_ge {b : Byte} (hb : 41 ≤ b.toNat) : ∃ lo hi : Digit,
    tailSymbols b = [lo, hi].map fwd ∧ b.toNat = lo.val + 41 * hi.val := by
  have hlt : b.toNat < 256 := b.isLt
  have hhi : 0 < b.toNat / 41 := by omega
  refine ⟨⟨b.toNat % 41, by omega⟩, ⟨b.toNat / 41, by omega⟩, ?_, (Nat.mod_add_div _ _).symm⟩
  simp only [tailSymbols, gt_iff_lt, if_pos hhi, List.map]

/-- A remainder of two values in range is one byte (R103). -/
theorem decodeByteGroups_double {v0 v1 : Value6} (hlow : 41 ≤ doubleValue v0 v1) (hhigh : doubleValue v0 v1 < 256) :
    decodeByteGroups [v0, v1] = .ok [BitVec.ofNat 8 (doubleValue v0 v1)] := by
  rw [decodeByteGroups, if_neg hlow.not_gt, if_neg hhigh.not_ge]

/-- One symbol decodes to its value as a byte. -/
theorem decodeBytes_fwd (f : RevFilter) (d : Digit) : decodeBytes f [fwd d] = .ok [BitVec.ofNat 8 d.val] := by
  have hfilter : filterBytes f [fwd d] = [digitValue d] := filterBytes_map_fwd f [d]
  have hbyte : (digitValue d).setWidth 8 = BitVec.ofNat 8 d.val := by
    rw [← digitValue_toNat d, BitVec.ofNat_toNat]
  rw [decodeBytes, hfilter, decodeByteGroups, hbyte]

theorem decodeBytes_tailSymbols (f : RevFilter) (b : Byte) : decodeBytes f (tailSymbols b) = .ok [b] := by
  by_cases hb : 41 ≤ b.toNat
  · obtain ⟨lo, hi, hsymbols, hvalue⟩ := tailSymbols_of_ge hb
    have hdouble : doubleValue (digitValue lo) (digitValue hi) = b.toNat := by
      rw [doubleValue, digitValue_toNat, digitValue_toNat, hvalue]
    have hgroups : decodeByteGroups [digitValue lo, digitValue hi] = .ok [b] := by
      rw [decodeByteGroups_double (hdouble ▸ hb) (hdouble ▸ b.isLt), hdouble, BitVec.ofNat_toNat, BitVec.setWidth_eq]
    rw [decodeBytes, hsymbols, filterBytes_map_fwd]
    exact hgroups
  · obtain ⟨d, rfl⟩ : ∃ d : Digit, BitVec.ofNat 8 d.val = b :=
      ⟨⟨b.toNat, Nat.lt_of_not_le hb⟩, by rw [BitVec.ofNat_toNat, BitVec.setWidth_eq]⟩
    rw [tailSymbols_of_digit, decodeBytes_fwd]

/-! ### The statements -/

/-- Settles O53, along the recursion of the encoder: a pair of bytes is a triplet in front of the rest, and an odd last byte
is a remainder. -/
theorem decodeBytesOfEncodeBytes : Obligations.DecodeBytesOfEncodeBytes := by
  unfold Obligations.DecodeBytesOfEncodeBytes
  intro f bs
  induction bs using encodeBytes.induct with
  | case1 b0 b1 rest ih =>
    rw [encodeBytes, decodeBytes_tripleSymbols_append, ih]
    rfl
  | case2 b => rw [encodeBytes, decodeBytes_tailSymbols]
  | case3 => rfl

/-- Settles O54, by induction on the values: each value is a triplet in front of the rest. -/
theorem decodeU16OfEncodeU16 : Obligations.DecodeU16OfEncodeU16 := by
  unfold Obligations.DecodeU16OfEncodeU16
  intro f ws
  induction ws with
  | nil => rfl
  | cons u us ih =>
    rw [encodeU16, List.flatMap_cons, decodeU16_tripleSymbols_append, ← encodeU16, ih]
    rfl

/-- Settles O55: a byte below 41 is its own low digit. -/
theorem singleSymbolCompleteness : Obligations.SingleSymbolCompleteness := by
  unfold Obligations.SingleSymbolCompleteness
  exact fun f v => ⟨decodeBytes_fwd f v, tailSymbols_of_digit v⟩

end Sys2Proof.Machine
end

section
/-! Exceptions (60_exceptions.md R138): ILLEGAL_SEQUENCE is the answer in the wrong mode, and of no other case of a rule. -/

namespace Sys2Proof.Machine

theorem exec_decEnd (s : State) : exec .decEnd s = execDecEnd s := rfl

theorem exec_decEnd_of_not_open {s : State} (hm : s.decMode = .idle ∨ s.decMode = .error) :
    exec .decEnd s = s.illegalSequence := by
  rcases hm with hm | hm <;> simpa [exec_decEnd, hm] using execDecEnd_cases s

/-- R138: in the wrong mode a command raises IllegalSequence. -/
theorem exec_of_wrongMode {i : Instr} {s : State} (h : WrongMode i s) : exec i s = s.illegalSequence := by
  rcases h with ⟨⟨b, rfl⟩, hm⟩ | ⟨⟨u, rfl⟩, hm⟩ | ⟨rfl, hm⟩ | ⟨⟨b, rfl⟩ | rfl, hm⟩
  · exact exec_encByte_of_not_bytes hm
  · exact exec_encU16_of_not_u16 hm
  · exact exec_encEnd_of_idle hm
  · exact exec_decSym_of_not_open (by rcases hm with hm | hm <;> simp [hm])
  · exact exec_decEnd_of_not_open hm

/-- A command is in the wrong mode, or every case of its rule answers with another status than ILLEGAL_SEQUENCE. -/
theorem exec_wrongMode_or_answers {i : Instr} {s t : State} (h : exec i s = .next t) :
    WrongMode i s ∨ ∃ r : Response, t.responses = s.responses ++ [r.word] ∧ r.status ≠ .illegalSequence := by
  cases exec_cases h with
  | encByteRejected b hm => exact .inl (.inl ⟨⟨b, rfl⟩, hm⟩)
  | encU16Rejected u hm => exact .inl (.inr (.inl ⟨⟨u, rfl⟩, hm⟩))
  | encEndRejected hm => exact .inl (.inr (.inr (.inl ⟨rfl, hm⟩)))
  | decSymRejected b hm => exact .inl (.inr (.inr (.inr ⟨.inl ⟨b, rfl⟩, hm⟩)))
  | decEndRejected hm => exact .inl (.inr (.inr (.inr ⟨.inr rfl, hm⟩)))
  | _ => exact .inr ⟨_, rfl, by simp⟩

/-- R66: no other status has the code of ILLEGAL_SEQUENCE. -/
theorem status_code_eq_five_iff (status : Status) : status.code = 5 ↔ status = .illegalSequence := by
  cases status <;> decide

/-- Settles O39: the wrong mode raises IllegalSequence, whose word has STATUS 5; any other answer has another status, so another
code. -/
theorem illegalSequenceExactlyInWrongMode : Obligations.IllegalSequenceExactlyInWrongMode := by
  unfold Obligations.IllegalSequenceExactlyInWrongMode
  intro i s
  have hraise : WrongMode i s → exec i s = .next { s with responses := s.responses ++ [5] } := fun hw => by
    rw [exec_of_wrongMode hw, illegalSequence_eq_next]
  refine ⟨⟨fun ⟨t, w, hexec, hresp, hfive⟩ => ?_, fun hw => ⟨_, 5, hraise hw, rfl, by decide⟩⟩, hraise⟩
  rcases exec_wrongMode_or_answers hexec with hw | ⟨r, hr, hstatus⟩
  · exact hw
  · obtain rfl : w = r.word := by simpa [hr] using hresp.symm
    rw [statusField_word, status_code_eq_five_iff] at hfive
    exact absurd hfive hstatus

end Sys2Proof.Machine
end

section
/-! Reset and hazards (70_reset_and_hazards.md R164): LUT and STAT commands between the commands of a session leave it as it
is, because every case of their rules is a response and no other write. -/

namespace Sys2Proof.Machine

/-- R85: an index above 40 is refused by a response too. -/
theorem exec_lutFwd_completes (v : Byte) (s : State) : ∃ r, exec (.lutFwd v) s = s.complete r := by
  rw [exec_lutFwd]
  rcases execLutFwd_cases v s with ⟨_, found⟩ | ⟨_, refused⟩
  · exact ⟨_, found⟩
  · exact ⟨_, refused⟩

/-- R86: a byte the filter rejects is answered by a response too. -/
theorem exec_lutRev_completes (b : Byte) (s : State) : ∃ r, exec (.lutRev b) s = s.complete r := by
  rw [exec_lutRev]
  rcases execLutRev_cases b s with ⟨_, _, accepted⟩ | ⟨_, rejected⟩
  · exact ⟨_, accepted⟩
  · exact ⟨_, rejected⟩

/-- Settles O41: LUT_FWD and LUT_REV are the commands of LUT and STAT the one of both units, and each completes in the state it
found. -/
theorem lutAndStatOnlyRespond : Obligations.LutAndStatOnlyRespond := by
  unfold Obligations.LutAndStatOnlyRespond
  intro i s hunit
  have hcompletes : ∃ r, exec i s = s.complete r := by
    cases i with
    | lutFwd v => exact exec_lutFwd_completes v s
    | lutRev b => exact exec_lutRev_completes b s
    | stat => exact ⟨_, exec_stat s⟩
    | _ => simp [Instr.unit] at hunit
  obtain ⟨r, hr⟩ := hcompletes
  exact ⟨r.word, hr.trans (complete_eq s r)⟩

end Sys2Proof.Machine
end

section
/-! Encoding (30_encoding.md R57 to R63): a command's word decodes to it, and every word that decodes is the word of its command,
because the row of R59 that matches the word fixes every bit of it but the operand that the command carries. -/

namespace Sys2Proof

/-! ### From a command to its word and back -/

theorem decode_cmdWord (op : BitVec 4) (opd : Value16) : decode (cmdWord op opd) = decodeOp (cmdWord op opd) := by
  rw [decode, if_pos (rsvField_cmdWord op opd)]

theorem decodeNone_cmdWord (op : BitVec 4) (i : Instr) : decodeNone (cmdWord op 0) i = .ok i := by
  rw [decodeNone, if_pos (opdField_cmdWord op 0)]

theorem decodeByte_cmdWord (op : BitVec 4) (b : Byte) (mk : Byte → Instr) :
    decodeByte (cmdWord op (byteOpd b)) mk = .ok (mk b) := by
  rw [decodeByte, if_pos (opdHigh_cmdWord op b), opdByte_cmdWord]

/-- Settles O1: the word's opcode selects the command's branch of the opcode map, and the branch reads the operand back. -/
theorem decodeOfEncodeIsTheCommand : Obligations.DecodeOfEncodeIsTheCommand := by
  unfold Obligations.DecodeOfEncodeIsTheCommand
  intro i
  cases i with
  | encByte b | lutFwd b | lutRev b | decSym b =>
    simp only [encode, decode_cmdWord, decodeOp, opField_cmdWord, decodeByte_cmdWord, BitVec.reduceToNat]
  | encU16 u => simp only [encode, decode_cmdWord, decodeOp, opField_cmdWord, opdField_cmdWord, BitVec.reduceToNat]
  | _ => simp only [encode, decode_cmdWord, decodeOp, opField_cmdWord, decodeNone_cmdWord, BitVec.reduceToNat]

/-! ### From a word to its command and back -/

/-- A word is the command word of its three fields (R57). -/
theorem eq_cmdWord_iff (w : CmdWord) (op : BitVec 4) (opd : Value16) :
    w = cmdWord op opd ↔ opField w = op ∧ rsvField w = 0 ∧ opdField w = opd := by
  rw [eq_iff_fields, opField_cmdWord, rsvField_cmdWord, opdField_cmdWord]

/-- An operand with unused high bits 0 is a byte operand (R62). -/
theorem opdField_of_opdHigh {w : CmdWord} (h : opdHigh w = 0) : opdField w = byteOpd (opdByte w) := by
  rw [← opdBytes_append, h, byteOpd]

/-- `r` is a row whose command has, for each word the row matches, that word as its encoding. -/
def OpcodeRow.EncodesBack (r : OpcodeRow) : Prop := ∀ w, r.matchesWord w = true → encode (r.command w) = w

theorem rowNone_encodesBack {op : BitVec 4} {i : Instr} (hi : encode i = cmdWord op 0) : (rowNone op i).EncodesBack := by
  intro w hw
  exact hi.trans ((eq_cmdWord_iff w op 0).mpr ((rowNone_matchesWord op i w).mp hw)).symm

theorem rowByte_encodesBack {op : BitVec 4} {mk : Byte → Instr} (hmk : ∀ b, encode (mk b) = cmdWord op (byteOpd b)) :
    (rowByte op mk).EncodesBack := by
  intro w hw
  obtain ⟨hop, hrsv, hhigh⟩ := (rowByte_matchesWord op mk w).mp hw
  exact (hmk _).trans ((eq_cmdWord_iff w op _).mpr ⟨hop, hrsv, opdField_of_opdHigh hhigh⟩).symm

theorem rowU16_encodesBack {op : BitVec 4} {mk : Value16 → Instr} (hmk : ∀ u, encode (mk u) = cmdWord op u) :
    (rowU16 op mk).EncodesBack := by
  intro w hw
  obtain ⟨hop, hrsv⟩ := (rowU16_matchesWord op mk w).mp hw
  exact (hmk _).trans ((eq_cmdWord_iff w op _).mpr ⟨hop, hrsv, rfl⟩).symm

/-- The encoder writes each command with the opcode and the operand shape of its row. -/
theorem opcodeRows_encodeBack : ∀ r ∈ opcodeRows, r.EncodesBack := by
  rw [opcodeRows_eq]
  simp only [List.forall_mem_cons]
  exact ⟨rowNone_encodesBack rfl, rowNone_encodesBack rfl, rowByte_encodesBack fun _ => rfl, rowU16_encodesBack fun _ => rfl,
    rowNone_encodesBack rfl, rowNone_encodesBack rfl, rowByte_encodesBack fun _ => rfl, rowByte_encodesBack fun _ => rfl,
    rowNone_encodesBack rfl, rowNone_encodesBack rfl, rowByte_encodesBack fun _ => rfl, rowNone_encodesBack rfl,
    rowNone_encodesBack rfl, rowNone_encodesBack rfl, List.forall_mem_nil _⟩

/-- A command that the search of R63 reads is read by a row that matches. -/
theorem exists_row_of_decode {w : CmdWord} {i : Instr} (h : decode w = .ok i) :
    ∃ r ∈ opcodeRows, r.matchesWord w = true ∧ r.command w = i := by
  have hsearch : decodeByTable w = some i := by rw [decoderAgreesWithOpcodeRows w, h]
  obtain ⟨r, hfind, hcommand⟩ := Option.map_eq_some_iff.mp hsearch
  exact ⟨r, List.mem_of_find?_eq_some hfind, List.find?_some (p := (OpcodeRow.matchesWord · w)) hfind, hcommand⟩

/-- Settles O2: the row that reads the command encodes back. -/
theorem encodeOfDecodedWordIsTheWord : Obligations.EncodeOfDecodedWordIsTheWord := by
  unfold Obligations.EncodeOfDecodedWordIsTheWord
  intro w i h
  obtain ⟨r, hmem, hmatch, rfl⟩ := exists_row_of_decode h
  exact opcodeRows_encodeBack r hmem w hmatch

/-! ### The rows -/

/-- A row matches words of its own opcode alone. -/
theorem opcodeRows_fix_opField : ∀ r ∈ opcodeRows, ∀ w, r.matchesWord w = true → opField w = opField r.matchBits := by
  have hnone (op i w) (h : (rowNone op i).matchesWord w = true) : opField w = opField (cmdWord op 0) := by
    rw [opField_cmdWord, ((rowNone_matchesWord op i w).mp h).1]
  have hbyte (op mk w) (h : (rowByte op mk).matchesWord w = true) : opField w = opField (cmdWord op 0) := by
    rw [opField_cmdWord, ((rowByte_matchesWord op mk w).mp h).1]
  have hu16 (op mk w) (h : (rowU16 op mk).matchesWord w = true) : opField w = opField (cmdWord op 0) := by
    rw [opField_cmdWord, ((rowU16_matchesWord op mk w).mp h).1]
  rw [opcodeRows_eq]
  simp only [List.forall_mem_cons]
  exact ⟨hnone _ _, hnone _ _, hbyte _ _, hu16 _ _, hnone _ _, hnone _ _, hbyte _ _, hbyte _ _, hnone _ _, hnone _ _, hbyte _ _,
    hnone _ _, hnone _ _, hnone _ _, List.forall_mem_nil _⟩

/-- No two rows have the same opcode (R58). -/
theorem opcodeRows_opFields_differ : opcodeRows.Pairwise (fun r q => opField r.matchBits ≠ opField q.matchBits) := by
  rw [← List.pairwise_map (R := (· ≠ ·))]
  decide

/-- Settles O4: a word has one opcode, and two rows have two. -/
theorem opcodeRowsAreDisjoint : Obligations.OpcodeRowsAreDisjoint := by
  unfold Obligations.OpcodeRowsAreDisjoint
  refine opcodeRows_opFields_differ.imp_of_mem fun {r q} hr hq hdiffer w ⟨hrw, hqw⟩ => hdiffer ?_
  rw [← opcodeRows_fix_opField r hr w hrw, opcodeRows_fix_opField q hq w hqw]

/-- Settles O6: each word is a literal, so the decoder is evaluated on it. -/
theorem writtenWordsDecode : Obligations.WrittenWordsDecode := by
  unfold Obligations.WrittenWordsDecode
  exact ⟨rfl, rfl, rfl, rfl, rfl, rfl, rfl, rfl, rfl, rfl, rfl, rfl⟩

end Sys2Proof
end

section
/-! The text of a command (30_encoding.md R74, R75): the name ends where the blank before the operand stands, and the digits of
the operand are read back as its value. -/

namespace Sys2Proof.Machine

/-! ### Digits -/

theorem hexDigit_hexChar (n : BitVec 4) : hexDigit (hexChar n) = some n.toNat := by
  revert n; decide

theorem hexByte_eq (b : Byte) : hexByte b = [b.extractLsb' 4 4, b.extractLsb' 0 4].map hexChar := rfl

theorem hexValue16_eq (u : Value16) : hexValue16 u =
    [(u.extractLsb' 8 8).extractLsb' 4 4, (u.extractLsb' 8 8).extractLsb' 0 4, (u.extractLsb' 0 8).extractLsb' 4 4,
      (u.extractLsb' 0 8).extractLsb' 0 4].map hexChar := rfl

/-- Hexadecimal digits are read as the number they spell. -/
theorem readDigits_map_hexChar (acc : Nat) (ns : List (BitVec 4)) :
    readDigits hexDigit 16 acc (ns.map hexChar) = (ns.foldl (fun a n => a * 16 + n.toNat) acc, []) := by
  induction ns generalizing acc with
  | nil => rfl
  | cons n ns ih => simp only [List.map_cons, readDigits, hexDigit_hexChar, ih, List.foldl_cons]

theorem readDigits_hexByte (b : Byte) : readDigits hexDigit 16 0 (hexByte b) = (b.toNat, []) := by
  have hb : b.toNat < 256 := b.isLt
  rw [hexByte_eq, readDigits_map_hexChar]
  simp only [List.foldl, BitVec.extractLsb'_toNat, Nat.shiftRight_eq_div_pow, Prod.mk.injEq, and_true]
  omega

theorem readDigits_hexValue16 (u : Value16) : readDigits hexDigit 16 0 (hexValue16 u) = (u.toNat, []) := by
  have hu : u.toNat < 65536 := u.isLt
  rw [hexValue16_eq, readDigits_map_hexChar]
  simp only [List.foldl, BitVec.extractLsb'_toNat, Nat.shiftRight_eq_div_pow, Prod.mk.injEq, and_true]
  omega

/-! ### Operands -/

/-- A hexadecimal operand after one blank, with nothing behind it (R75). -/
theorem asmOperand_hex {digits : List Char} {v bound : Nat} (mk : Nat → Instr)
    (hread : readNumber hexDigit 16 digits = some (v, [])) (hv : v < bound) :
    asmOperand ([' ', '0', 'x'] ++ digits) bound mk = .ok [mk v] := by
  have hskip : skipBlanks ([' ', '0', 'x'] ++ digits) = '0' :: 'x' :: digits := rfl
  have hend : atEnd [] = true := rfl
  simp only [asmOperand, hskip, readOperand, hread, hend, hv, if_true]

theorem asmOperand_hexByte (mk : Nat → Instr) (b : Byte) :
    asmOperand ([' ', '0', 'x'] ++ hexByte b) 256 mk = .ok [mk b.toNat] := by
  refine asmOperand_hex mk ?_ b.isLt
  simp only [readNumber, hexByte, hexDigit_hexChar, Option.isSome_some, if_true]
  rw [← hexByte, readDigits_hexByte]

theorem asmOperand_hexValue16 (mk : Nat → Instr) (u : Value16) :
    asmOperand ([' ', '0', 'x'] ++ hexValue16 u) 65536 mk = .ok [mk u.toNat] := by
  refine asmOperand_hex mk ?_ u.isLt
  rw [← readDigits_hexValue16]
  simp only [readNumber, hexValue16, hexByte, List.cons_append, hexDigit_hexChar, Option.isSome_some, if_true]

/-! ### Names -/

/-- A text that begins with a name character is no blank line and no comment. -/
theorem skipBlanks_name {c : Char} (hc : isNameChar c = true) (cs : List Char) : skipBlanks (c :: cs) = c :: cs := by
  have hblank : isBlank c = false := by simp [isNameChar] at hc; exact hc.1
  simp [skipBlanks, hblank]

theorem atEnd_name {c : Char} (hc : isNameChar c = true) (cs : List Char) : atEnd (c :: cs) = false := by
  have hcomment : (c == ';') = false := by simp [isNameChar] at hc; simpa using hc.2
  rw [atEnd, skipBlanks_name hc]
  exact hcomment

/-- A line is read as a name, up to the first character that is none of a name's, and what follows it (R74). -/
theorem assembleLine_name {name rest : List Char} (hname : name ≠ []) (hchars : name.all isNameChar = true)
    (hrest : rest.head?.all (fun c => !isNameChar c) = true) :
    assembleLine (name ++ rest) = asmNamed (String.ofList name) rest := by
  have hall : ∀ c ∈ name, isNameChar c = true := List.all_eq_true.mp hchars
  have htake : (name ++ rest).takeWhile isNameChar = name := by
    rw [List.takeWhile_append_of_pos hall]
    cases rest <;> simp_all
  have hdrop : (name ++ rest).dropWhile isNameChar = rest := by
    rw [List.dropWhile_append_of_pos hall]
    cases rest <;> simp_all
  obtain ⟨c, cs, rfl⟩ := List.exists_cons_of_ne_nil hname
  have hc : isNameChar c = true := hall c List.mem_cons_self
  have hskip : skipBlanks (c :: cs ++ rest) = c :: cs ++ rest := skipBlanks_name hc _
  have hend : atEnd (c :: cs ++ rest) = false := atEnd_name hc _
  simp only [assembleLine, hskip, hend, htake, hdrop, Bool.false_eq_true, if_false]

/-- The mnemonics of R58 are names. -/
theorem mnemonic_isName (i : Instr) : i.mnemonic.toList ≠ [] ∧ i.mnemonic.toList.all isNameChar = true := by
  cases i <;> simp only [Instr.mnemonic] <;> decide

/-- A command's mnemonic, alone or with its operand behind a blank, is assembled by that mnemonic. -/
theorem assembleLine_mnemonic (i : Instr) {rest : List Char} (hrest : rest.head?.all (fun c => !isNameChar c) = true) :
    assembleLine (i.mnemonic.toList ++ rest) = asmNamed i.mnemonic rest := by
  rw [assembleLine_name (mnemonic_isName i).1 (mnemonic_isName i).2 hrest, String.ofList_toList]

theorem assembleLine_mnemonic_alone (i : Instr) : assembleLine i.mnemonic.toList = asmNamed i.mnemonic [] := by
  simpa using assembleLine_mnemonic i (rest := []) rfl

theorem assembleLine_mnemonic_hex (i : Instr) (digits : List Char) :
    assembleLine (i.mnemonic.toList ++ [' ', '0', 'x'] ++ digits) = asmNamed i.mnemonic ([' ', '0', 'x'] ++ digits) := by
  rw [List.append_assoc, assembleLine_mnemonic i rfl]

/-! ### The statement -/

/-- Settles O60: the mnemonic selects the command's own branch, which takes no operand or reads its digits back. -/
theorem textOfACommandAssembles : Obligations.TextOfACommandAssembles := by
  unfold Obligations.TextOfACommandAssembles
  intro i
  cases i with
  | encByte b | lutFwd b | lutRev b | decSym b =>
    rw [cmdText, assembleLine_mnemonic_hex]
    refine (asmOperand_hexByte _ b).trans ?_
    rw [BitVec.ofNat_toNat, BitVec.setWidth_eq]
  | encU16 u =>
    rw [cmdText, assembleLine_mnemonic_hex]
    refine (asmOperand_hexValue16 _ u).trans ?_
    rw [BitVec.ofNat_toNat, BitVec.setWidth_eq]
  | _ =>
    rw [cmdText, assembleLine_mnemonic_alone]
    rfl

end Sys2Proof.Machine
end

section
/-! The commands of the whole machine (60_exceptions.md R132, R148): every command answers once, and what a unit's command does
depends on that unit's share of the state and on nothing else. -/

namespace Sys2Proof.Machine

/-! ### Every command answers -/

theorem exec_decEnd_of_bytes {s : State} (hm : s.decMode = .bytes) : exec .decEnd s = endBytes s := by
  simpa [exec_decEnd, hm] using execDecEnd_cases s

theorem exec_decEnd_of_u16 {s : State} (hm : s.decMode = .u16) : exec .decEnd s = endU16 s := by
  simpa [exec_decEnd, hm] using execDecEnd_cases s

section
variable {s : State}

theorem endBytes_of_none (hc : s.decCnt = 0) : endBytes s = s.closeDec.ok := by
  simpa [hc] using endBytes_cases s

theorem endBytes_of_single (hc : s.decCnt = 1) :
    endBytes s = ((s.emitDec [narrowBeat (s.decV0.setWidth 8)]).closeDec).ok := by
  simpa [hc] using endBytes_cases s

theorem endBytes_of_underflow (hc : s.decCnt = 2) (hu : doubleValue s.decV0 s.decV1 < 41) :
    endBytes s = s.raiseError .underflow (doubleValue s.decV0 s.decV1) 41 := by
  have hsmall : doubleValue s.decV0 s.decV1 < 256 := by omega
  simpa [hc, hu, hu.not_ge, hsmall.not_ge] using endBytes_cases s

theorem endBytes_of_overflow (hc : s.decCnt = 2) (hu : 256 ≤ doubleValue s.decV0 s.decV1) :
    endBytes s = s.raiseError .overflow (doubleValue s.decV0 s.decV1) 255 := by
  have hlarge : 41 ≤ doubleValue s.decV0 s.decV1 := by omega
  simpa [hc, hu, hu.not_gt, hlarge.not_gt] using endBytes_cases s

theorem endBytes_of_double (hc : s.decCnt = 2) (hlow : 41 ≤ doubleValue s.decV0 s.decV1)
    (hhigh : doubleValue s.decV0 s.decV1 < 256) :
    endBytes s = ((s.emitDec [narrowBeat (BitVec.ofNat 8 (doubleValue s.decV0 s.decV1))]).closeDec).ok := by
  simpa [hc, hlow, hhigh, hlow.not_gt, hhigh.not_ge] using endBytes_cases s

theorem endU16_of_none (hc : s.decCnt = 0) : endU16 s = s.closeDec.ok := by
  simpa [hc] using endU16_cases s

theorem endU16_of_leftover (hc : s.decCnt ≠ 0) : endU16 s = s.raiseError .contract s.decCnt.val 0 := by
  simpa [hc] using endU16_cases s

end

/-- An answer that completes: a next state with one response more than some state has. -/
def Answer.Completes (a : Answer) : Prop := ∃ (t : State) (r : Response), a = t.complete r

theorem acceptValue_completes (x : Value6) (s : State) : Answer.Completes (acceptValue x s) := by
  rcases acceptValue_cases x s with ⟨-, h⟩ | ⟨-, h⟩ | ⟨-, h⟩ <;> rw [h]
  · exact ⟨_, _, rfl⟩
  · exact ⟨_, _, rfl⟩
  · rcases completeTriplet_cases x s with ⟨-, h⟩ | ⟨-, -, h⟩ | ⟨-, -, h⟩ <;> rw [h] <;> exact ⟨_, _, rfl⟩

theorem execDecSym_completes (b : Byte) (s : State) : Answer.Completes (execDecSym b s) := by
  rcases execDecSym_cases b s with ⟨-, h⟩ | ⟨-, -, h⟩ | ⟨-, x, -, h⟩ <;> rw [h]
  · exact ⟨_, _, rfl⟩
  · exact ⟨_, _, rfl⟩
  · exact acceptValue_completes x s

theorem execDecEnd_completes (s : State) : Answer.Completes (execDecEnd s) := by
  rcases execDecEnd_cases s with ⟨-, h⟩ | ⟨-, h⟩ | ⟨-, h⟩ <;> rw [h]
  · rcases endBytes_cases s with ⟨-, h⟩ | ⟨-, h⟩ | ⟨-, -, h⟩ | ⟨-, -, h⟩ | ⟨-, -, -, h⟩ <;> rw [h] <;> exact ⟨_, _, rfl⟩
  · rcases endU16_cases s with ⟨-, h⟩ | ⟨-, h⟩ <;> rw [h] <;> exact ⟨_, _, rfl⟩
  · exact ⟨_, _, rfl⟩

/-- R132: a command raises no trap and is refused by no case of its rule. -/
theorem exec_completes (i : Instr) (s : State) : Answer.Completes (exec i s) := by
  cases i with
  | encByte b =>
    rw [exec_encByte]
    rcases execEncByte_cases b s with ⟨-, h⟩ | ⟨-, -, h⟩ | ⟨-, -, h⟩ <;> rw [h] <;> exact ⟨_, _, rfl⟩
  | encU16 u =>
    rw [exec_encU16]
    rcases execEncU16_cases u s with ⟨-, h⟩ | ⟨-, h⟩ <;> rw [h] <;> exact ⟨_, _, rfl⟩
  | encEnd =>
    rw [exec_encEnd]
    rcases execEncEnd_cases s with ⟨-, h⟩ | ⟨-, -, h⟩ | ⟨-, -, h⟩ <;> rw [h] <;> exact ⟨_, _, rfl⟩
  | lutFwd v => exact ⟨s, exec_lutFwd_completes v s⟩
  | lutRev b => exact ⟨s, exec_lutRev_completes b s⟩
  | decSym b => exact execDecSym_completes b s
  | decEnd => exact execDecEnd_completes s
  | encStartBytes | encStartU16 | encAbort | decStartBytes | decStartU16 | decAbort | stat => exact ⟨_, _, rfl⟩

theorem exec_answers (i : Instr) (s : State) : ∃ t, exec i s = .next t := by
  obtain ⟨t, r, h⟩ := exec_completes i s
  exact ⟨_, h⟩

/-- R49: a command returns one response, after those returned before. -/
theorem exec_responds {i : Instr} {s t : State} (h : exec i s = .next t) :
    ∃ r : Response, t.responses = s.responses ++ [r.word] := by
  cases exec_cases h <;> exact ⟨_, rfl⟩

/-! ### The responses -/

theorem status_code_le (status : Status) : status.code.toNat ≤ 6 := by
  cases status <;> decide

/-- R64: the fields of a response leave its reserved bits 0, and no status is above 6. -/
theorem word_legal (r : Response) : ResponseLegal r.word := by
  refine ⟨?_, ?_, ?_⟩
  · rw [Response.word]
    iterate 4 rw [BitVec.extractLsb'_append_eq_of_le (by decide)]
    exact BitVec.extractLsb'_append_eq_right
  · rw [Response.word]
    iterate 7 rw [BitVec.extractLsb'_append_eq_of_le (by decide)]
    exact BitVec.extractLsb'_eq_self
  · rw [statusField_word]
    exact status_code_le r.status

/-- Settles O38: a command completes, with a response whose word has the form of R64. -/
theorem everyCommandRespondsOnce : Obligations.EveryCommandRespondsOnce := by
  unfold Obligations.EveryCommandRespondsOnce
  intro i s
  obtain ⟨t, ht⟩ := exec_answers i s
  obtain ⟨r, hr⟩ := exec_responds ht
  exact ⟨t, r.word, ht, hr, word_legal r⟩

/-- Settles O48: every case of the rules of ENC answers OK or ILLEGAL_SEQUENCE. -/
theorem encoderRaisesNoDataError : Obligations.EncoderRaisesNoDataError := by
  unfold Obligations.EncoderRaisesNoDataError
  intro i s hunit
  obtain ⟨t, ht⟩ := exec_answers i s
  have hword : ∃ r : Response, t.responses = s.responses ++ [r.word] ∧ (r.word = 0 ∨ r.word = 5) := by
    cases exec_cases ht with
    | encByteRejected | encU16Rejected | encEndRejected => exact ⟨_, rfl, .inr word_illegalSequence⟩
    | encStartBytes | encStartU16 | encByteHeld | encBytePaired | encU16Emitted | encEndTail | encEndClosed | encAborted =>
      exact ⟨_, rfl, .inl word_ok⟩
    | _ => cases hunit
  obtain ⟨r, hr, hvalue⟩ := hword
  exact ⟨t, r.word, ht, hr, hvalue⟩

/-! ### What a command leaves alone -/

/-- Commands of ENC alone write the state and the channel of ENC. -/
theorem exec_encUnit_of_unit_ne {i : Instr} {s t : State} (h : exec i s = .next t) (hunit : i.unit ≠ .enc) :
    encUnit t = encUnit s := by
  cases exec_cases h with
  | encStartBytes | encStartU16 | encByteRejected | encByteHeld | encBytePaired | encU16Rejected | encU16Emitted
  | encEndRejected | encEndTail | encEndClosed | encAborted => exact absurd rfl hunit
  | _ => rfl

/-- Commands of DEC alone write the state and the channel of DEC. -/
theorem exec_decUnit_of_unit_ne {i : Instr} {s t : State} (h : exec i s = .next t) (hunit : i.unit ≠ .dec) :
    decUnit t = decUnit s := by
  cases exec_cases h with
  | encStartBytes | encStartU16 | encByteRejected | encByteHeld | encBytePaired | encU16Rejected | encU16Emitted
  | encEndRejected | encEndTail | encEndClosed | encAborted | lutFwdFound | lutFwdRefused | lutRevAccepted | lutRevRejected
  | stat => rfl
  | _ => exact absurd rfl hunit

/-- Settles O40: the host's side and each unit have their own lemma, by cases on what the command does. -/
theorem unitsLeaveEachOtherAlone : Obligations.UnitsLeaveEachOtherAlone := by
  unfold Obligations.UnitsLeaveEachOtherAlone
  exact fun i s t h => ⟨exec_sameHostSide h, exec_decUnit_of_unit_ne h, exec_encUnit_of_unit_ne h⟩

/-! ### The cases of the rules, read backwards -/

/-- The case of a rule that applies says what the command does: `ExecCase` is the graph of `exec`. -/
theorem ExecCase.exec_eq {i : Instr} {s t : State} (h : ExecCase s i t) : exec i s = .next t := by
  cases h with
  | encStartBytes | encStartU16 | encAborted | decStartBytes | decStartU16 | decAborted | stat => rfl
  | encByteRejected b hm => exact exec_encByte_of_not_bytes hm
  | encByteHeld b hm hv => exact exec_encByte_of_not_held hm hv
  | encBytePaired b hm hv => exact exec_encByte_of_held hm hv
  | encU16Rejected u hm => exact exec_encU16_of_not_u16 hm
  | encU16Emitted u hm => exact exec_encU16_of_u16 hm
  | encEndRejected hm => exact exec_encEnd_of_idle hm
  | encEndTail hm hv => exact exec_encEnd_of_held hm hv
  | encEndClosed hm hv => exact exec_encEnd_of_not_held hm hv
  | lutFwdFound v hv => simp [exec_lutFwd, execLutFwd, hv, complete_eq]
  | lutFwdRefused v hv => simp [exec_lutFwd, execLutFwd, hv.not_gt, illegalOperand_eq]
  | lutRevAccepted b x hr => simp [exec_lutRev, execLutRev, hr, complete_eq]
  | lutRevRejected b hr => simp [exec_lutRev, execLutRev, hr, complete_eq]
  | decSymRejected b hm => exact exec_decSym_of_not_open (by rcases hm with hm | hm <;> simp [hm])
  | decSymNoise b hm hr => exact exec_decSym_of_rejected hm hr
  | decSymFirst b x hm hr hc => rw [exec_decSym_of_accepted hm hr, acceptValue_of_first hc, ok_eq]
  | decSymSecond b x hm hr hc => rw [exec_decSym_of_accepted hm hr, acceptValue_of_second hc, ok_eq]
  | decSymOverflow b x hm hr hc hu =>
    rw [exec_decSym_of_accepted hm hr, acceptValue_of_third hc, completeTriplet_of_overflow hu, raiseError_eq]
    rfl
  | decSymOctets b x hm hr hc hu =>
    rw [exec_decSym_of_accepted (.inl hm) hr, acceptValue_of_third hc, completeTriplet_of_bytes hu hm, ok_eq]
  | decSymValue b x hm hr hc hu =>
    rw [exec_decSym_of_accepted (.inr hm) hr, acceptValue_of_third hc, completeTriplet_of_u16 hu hm, ok_eq]
  | decEndRejected hm => exact exec_decEnd_of_not_open hm
  | decEndClosed hm hc =>
    rcases hm with hm | hm
    · rw [exec_decEnd_of_bytes hm, endBytes_of_none hc, ok_eq]
    · rw [exec_decEnd_of_u16 hm, endU16_of_none hc, ok_eq]
  | decEndSingle hm hc => rw [exec_decEnd_of_bytes hm, endBytes_of_single hc, ok_eq]
  | decEndUnderflow hm hc hu =>
    rw [exec_decEnd_of_bytes hm, endBytes_of_underflow hc hu, raiseError_eq]
    rfl
  | decEndOverflow hm hc hu =>
    rw [exec_decEnd_of_bytes hm, endBytes_of_overflow hc hu, raiseError_eq]
    rfl
  | decEndDouble hm hc hu hv => rw [exec_decEnd_of_bytes hm, endBytes_of_double hc hu hv, ok_eq]
  | decEndContract hm hc =>
    rw [exec_decEnd_of_u16 hm, endU16_of_leftover hc, raiseError_eq]
    rfl

end Sys2Proof.Machine
end

section
/-! Two units side by side (60_exceptions.md R148; 70_reset_and_hazards.md R163): a unit's share of the state put into any other
state makes a command of that unit do and answer there what it does and answers here. -/

namespace Sys2Proof.Machine

/-! ### A unit's share put into another state -/

/-- `s` with the state and the channel of ENC replaced. -/
def State.withEncUnit (s : State) (e : EncUnit) : State :=
  { s with encMode := e.mode, encHv := e.hv, encHb := e.hb, encOut := e.out }

/-- `s` with the state and the channel of DEC replaced. -/
def State.withDecUnit (s : State) (d : DecUnit) : State :=
  { s with decMode := d.mode, decCnt := d.cnt, decV0 := d.v0, decV1 := d.v1, decEk := d.ek, decEv := d.ev, decEl := d.el,
           decOut := d.out }

theorem withEncUnit_of_eq {s s' : State} (h : encUnit s = encUnit s') : s'.withEncUnit (encUnit s) = s' := by
  rw [h]; rfl

theorem withDecUnit_of_eq {s s' : State} (h : decUnit s = decUnit s') : s'.withDecUnit (decUnit s) = s' := by
  rw [h]; rfl

/-- The case of ENC's rule that applies is chosen by ENC's share, and writes nothing else but the response. -/
theorem exec_enc_elsewhere {i : Instr} {s t : State} (hunit : i.unit = .enc) (h : exec i s = .next t) :
    ∃ r, ∀ s' : State, exec i (s'.withEncUnit (encUnit s)) =
      .next { s'.withEncUnit (encUnit t) with responses := s'.responses ++ [r] } := by
  suffices hcase : ∃ r, ∀ s' : State, ExecCase (s'.withEncUnit (encUnit s)) i
      { s'.withEncUnit (encUnit t) with responses := s'.responses ++ [r] } from
    hcase.imp fun _ hr s' => (hr s').exec_eq
  cases exec_cases h with
  | encStartBytes => exact ⟨_, fun _ => .encStartBytes⟩
  | encStartU16 => exact ⟨_, fun _ => .encStartU16⟩
  | encByteRejected b hm => exact ⟨_, fun _ => .encByteRejected b hm⟩
  | encByteHeld b hm hv => exact ⟨_, fun _ => .encByteHeld b hm hv⟩
  | encBytePaired b hm hv => exact ⟨_, fun _ => .encBytePaired b hm hv⟩
  | encU16Rejected u hm => exact ⟨_, fun _ => .encU16Rejected u hm⟩
  | encU16Emitted u hm => exact ⟨_, fun _ => .encU16Emitted u hm⟩
  | encEndRejected hm => exact ⟨_, fun _ => .encEndRejected hm⟩
  | encEndTail hm hv => exact ⟨_, fun _ => .encEndTail hm hv⟩
  | encEndClosed hm hv => exact ⟨_, fun _ => .encEndClosed hm hv⟩
  | encAborted => exact ⟨_, fun _ => .encAborted⟩
  | _ => cases hunit

/-- The response of a data error (30_encoding.md R67). -/
def errorResponse (kind : ErrKind) (value limit : Nat) : Response :=
  { status := kind.status, errKind := kind, errLimit := BitVec.ofNat 16 limit, errValue := BitVec.ofNat 17 value }

/-- What `raiseError` answers is this response. -/
theorem raiseError_eq_errorResponse (s : State) (kind : ErrKind) (value limit : Nat) :
    s.raiseError kind value limit = (s.enterError kind value limit).complete (errorResponse kind value limit) := rfl

/-- The case of DEC's rule that applies is chosen by DEC's share and the filter, and writes nothing else but the response. -/
theorem exec_dec_elsewhere {i : Instr} {s t : State} (hunit : i.unit = .dec) (h : exec i s = .next t) :
    ∃ r, ∀ s' : State, s'.cfg.revFilter = s.cfg.revFilter → exec i (s'.withDecUnit (decUnit s)) =
      .next { s'.withDecUnit (decUnit t) with responses := s'.responses ++ [r] } := by
  have hrev {s' : State} {b : Byte} {x : Option Value6} (hf : s'.cfg.revFilter = s.cfg.revFilter)
      (hr : rev s.cfg.revFilter b = x) : rev (s'.withDecUnit (decUnit s)).cfg.revFilter b = x :=
    (congrArg (rev · b) hf).trans hr
  suffices hcase : ∃ r, ∀ s' : State, s'.cfg.revFilter = s.cfg.revFilter → ExecCase (s'.withDecUnit (decUnit s)) i
      { s'.withDecUnit (decUnit t) with responses := s'.responses ++ [r] } from
    hcase.imp fun _ hr s' hf => (hr s' hf).exec_eq
  cases exec_cases h with
  | decStartBytes => exact ⟨_, fun _ _ => .decStartBytes⟩
  | decStartU16 => exact ⟨_, fun _ _ => .decStartU16⟩
  | decSymRejected b hm => exact ⟨_, fun _ _ => .decSymRejected b hm⟩
  | decSymNoise b hm hr => exact ⟨_, fun _ hf => .decSymNoise b hm (hrev hf hr)⟩
  | decSymFirst b x hm hr hc => exact ⟨_, fun _ hf => .decSymFirst b x hm (hrev hf hr) hc⟩
  | decSymSecond b x hm hr hc => exact ⟨_, fun _ hf => .decSymSecond b x hm (hrev hf hr) hc⟩
  | decSymOverflow b x hm hr hc hu =>
    exact ⟨(errorResponse .overflow (tripletValue s.decV0 s.decV1 x) 65535).word,
      fun _ hf => .decSymOverflow b x hm (hrev hf hr) hc hu⟩
  | decSymOctets b x hm hr hc hu => exact ⟨_, fun _ hf => .decSymOctets b x hm (hrev hf hr) hc hu⟩
  | decSymValue b x hm hr hc hu => exact ⟨_, fun _ hf => .decSymValue b x hm (hrev hf hr) hc hu⟩
  | decEndRejected hm => exact ⟨_, fun _ _ => .decEndRejected hm⟩
  | decEndClosed hm hc => exact ⟨_, fun _ _ => .decEndClosed hm hc⟩
  | decEndSingle hm hc => exact ⟨_, fun _ _ => .decEndSingle hm hc⟩
  | decEndUnderflow hm hc hu =>
    exact ⟨(errorResponse .underflow (doubleValue s.decV0 s.decV1) 41).word, fun _ _ => .decEndUnderflow hm hc hu⟩
  | decEndOverflow hm hc hu =>
    exact ⟨(errorResponse .overflow (doubleValue s.decV0 s.decV1) 255).word, fun _ _ => .decEndOverflow hm hc hu⟩
  | decEndDouble hm hc hu hv => exact ⟨_, fun _ _ => .decEndDouble hm hc hu hv⟩
  | decEndContract hm hc =>
    exact ⟨(errorResponse .contract s.decCnt.val 0).word, fun _ _ => .decEndContract hm hc⟩
  | decAborted => exact ⟨_, fun _ _ => .decAborted⟩
  | _ => cases hunit

/-! ### Two states that agree on a unit -/

/-- `t` has one response more than `s`, and `t'` the same one more than `s'`. -/
def SameResponse (s t s' t' : State) : Prop := ∃ r, t.responses = s.responses ++ [r] ∧ t'.responses = s'.responses ++ [r]

theorem exec_enc_same {i : Instr} {s s' t t' : State} (hunit : i.unit = .enc) (h : exec i s = .next t)
    (h' : exec i s' = .next t') (hs : encUnit s = encUnit s') : encUnit t = encUnit t' ∧ SameResponse s t s' t' := by
  obtain ⟨r, hr⟩ := exec_enc_elsewhere hunit h
  have ht := h.symm.trans (hr s)
  have ht' : Host.Outcome.next t' = _ := (withEncUnit_of_eq hs ▸ h').symm.trans (hr s')
  injection ht with ht
  injection ht' with ht'
  refine ⟨by rw [ht']; rfl, r, by rw [ht], by rw [ht']⟩

theorem exec_dec_same {i : Instr} {s s' t t' : State} (hunit : i.unit = .dec) (h : exec i s = .next t)
    (h' : exec i s' = .next t') (hs : decUnit s = decUnit s') (hf : s.cfg.revFilter = s'.cfg.revFilter) :
    decUnit t = decUnit t' ∧ SameResponse s t s' t' := by
  obtain ⟨r, hr⟩ := exec_dec_elsewhere hunit h
  have ht := h.symm.trans (hr s rfl)
  have ht' : Host.Outcome.next t' = _ := (withDecUnit_of_eq hs ▸ h').symm.trans (hr s' hf.symm)
  injection ht with ht
  injection ht' with ht'
  refine ⟨by rw [ht']; rfl, r, by rw [ht], by rw [ht']⟩

/-- Settles O42: one lemma for each of the two units. -/
theorem unitResultsDependOnTheirOwnState : Obligations.UnitResultsDependOnTheirOwnState := by
  unfold Obligations.UnitResultsDependOnTheirOwnState
  intro i s s' t t' h h'
  exact ⟨fun hunit hs => exec_enc_same hunit h h' hs, fun hunit hs hf => exec_dec_same hunit h h' hs hf⟩

/-- Two commands in a row. -/
theorem execAll_pair {i j : Instr} {s t u : State} (hi : exec i s = .next t) (hj : exec j t = .next u) :
    execAll [i, j] s = .next u := by
  rw [execAll_cons hi, execAll_cons hj, execAll]

/-- Settles O43: each of the two commands finds its own unit as it would without the other. -/
theorem encAndDecCommandsCommute : Obligations.EncAndDecCommandsCommute := by
  unfold Obligations.EncAndDecCommandsCommute
  intro i j s hi hj
  -- `i` then `j` leads to `t`, and `j` then `i` to `u`
  obtain ⟨si, hsi⟩ := exec_answers i s
  obtain ⟨t, ht⟩ := exec_answers j si
  obtain ⟨sj, hsj⟩ := exec_answers j s
  obtain ⟨u, hu⟩ := exec_answers i sj
  have hiDec {a b : State} (h : exec i a = .next b) : decUnit b = decUnit a := exec_decUnit_of_unit_ne h (by simp [hi])
  have hjEnc {a b : State} (h : exec j a = .next b) : encUnit b = encUnit a := exec_encUnit_of_unit_ne h (by simp [hj])
  obtain ⟨-, -, -, -, hcfg, -⟩ := exec_sameHostSide hsi
  obtain ⟨henc, r, hri, hru⟩ := exec_enc_same hi hsi hu (hjEnc hsj).symm
  obtain ⟨hdec, q, hqj, hqt⟩ := exec_dec_same hj hsj ht (hiDec hsi).symm (by rw [hcfg])
  refine ⟨t, u, r, q, execAll_pair hsi ht, execAll_pair hsj hu, ?_, ?_, ?_, ?_⟩
  · rw [hjEnc ht, henc]
  · rw [hiDec hu, hdec]
  · simp [hqt, hri]
  · simp [hru, hqj]

/-! ### Sessions that are over -/

section
variable {s t : State} (hm : s.decMode = .idle ∨ s.decMode = .error)
include hm

/-- Outside a session DEC_SYM is rejected and leaves DEC as it is (R107, R117). -/
theorem exec_decSym_keeps_closed {b : Byte} (h : exec (.decSym b) s = .next t) : decUnit t = decUnit s := by
  rw [exec_of_wrongMode (.inr (.inr (.inr ⟨.inl ⟨b, rfl⟩, hm⟩)))] at h
  cases h
  rfl

/-- Outside a session DEC_END is rejected and leaves DEC as it is (R108, R117). -/
theorem exec_decEnd_keeps_closed (h : exec .decEnd s = .next t) : decUnit t = decUnit s := by
  rw [exec_decEnd_of_not_open hm] at h
  cases h
  rfl

end

/-- Settles O46: in ERROR the session commands of DEC are rejected, and the other units' commands leave DEC alone. -/
theorem errorModeIsLeftOnlyByStartOrAbort : Obligations.ErrorModeIsLeftOnlyByStartOrAbort := by
  unfold Obligations.ErrorModeIsLeftOnlyByStartOrAbort
  intro i s t hm h
  constructor
  · rintro (rfl | rfl | rfl) <;> cases h <;> exact ⟨by simp, rfl, rfl, rfl, rfl⟩
  · intro hi
    cases i with
    | decStartBytes | decStartU16 | decAbort => simp at hi
    | decSym b => exact exec_decSym_keeps_closed (.inr hm) h
    | decEnd => exact exec_decEnd_keeps_closed (.inr hm) h
    | _ => exact exec_decUnit_of_unit_ne h (by simp [Instr.unit])

/-- Without a START of ENC a closed session stays closed and emits nothing (R99). -/
theorem exec_keeps_enc_closed {i : Instr} {s t : State} (h : exec i s = .next t) (hm : s.encMode = .idle)
    (hi : i ≠ .encStartBytes ∧ i ≠ .encStartU16) : t.encMode = .idle ∧ t.encOut = s.encOut := by
  obtain ⟨hbytes, hu16⟩ := hi
  cases exec_cases h with
  | encStartBytes => exact absurd rfl hbytes
  | encStartU16 => exact absurd rfl hu16
  | encByteHeld b hopen | encBytePaired b hopen | encU16Emitted u hopen | encEndTail hopen => cases hm.symm.trans hopen
  | encEndClosed hopen => exact absurd hm hopen
  | encAborted => exact ⟨rfl, rfl⟩
  | _ => exact ⟨hm, rfl⟩

/-- Without a START of DEC a closed or failed session stays so or is dropped, and emits nothing (R143, R154). -/
theorem exec_keeps_dec_closed {i : Instr} {s t : State} (h : exec i s = .next t) (hm : s.decMode = .idle ∨ s.decMode = .error)
    (hi : i ≠ .decStartBytes ∧ i ≠ .decStartU16) : (t.decMode = .idle ∨ t.decMode = s.decMode) ∧ t.decOut = s.decOut := by
  obtain ⟨hbytes, hu16⟩ := hi
  by_cases hunit : i.unit = .dec
  · cases i with
    | decStartBytes => exact absurd rfl hbytes
    | decStartU16 => exact absurd rfl hu16
    | decSym b =>
      have hkept := exec_decSym_keeps_closed hm h
      exact ⟨.inr (congrArg DecUnit.mode hkept), congrArg DecUnit.out hkept⟩
    | decEnd =>
      have hkept := exec_decEnd_keeps_closed hm h
      exact ⟨.inr (congrArg DecUnit.mode hkept), congrArg DecUnit.out hkept⟩
    | decAbort =>
      cases h
      exact ⟨.inl rfl, rfl⟩
    | _ => cases hunit
  · have hkept := exec_decUnit_of_unit_ne h hunit
    exact ⟨.inr (congrArg DecUnit.mode hkept), congrArg DecUnit.out hkept⟩

/-- What every command of a list keeps, the list keeps. -/
theorem execAll_keeps {P : State → Prop} {is : List Instr} {s t : State}
    (hstep : ∀ i ∈ is, ∀ a b, P a → exec i a = .next b → P b) (h : execAll is s = .next t) (hs : P s) : P t := by
  induction is generalizing s with
  | nil =>
    cases h
    exact hs
  | cons i is ih =>
    obtain ⟨u, hu⟩ := exec_answers i s
    rw [execAll_cons hu] at h
    exact ih (fun j hj => hstep j (List.mem_cons_of_mem i hj)) h (hstep i List.mem_cons_self s u hs hu)

/-- Settles O47: every command but a START keeps a unit's session over and its channel as it was. -/
theorem closedSessionsDoNotResume : Obligations.ClosedSessionsDoNotResume := by
  unfold Obligations.ClosedSessionsDoNotResume
  intro is s t h
  constructor
  · intro hm hi
    refine execAll_keeps (P := fun a => a.encMode = .idle ∧ a.encOut = s.encOut)
      (fun i hmem a b ⟨ha, hout⟩ hab => ?_) h ⟨hm, rfl⟩
    rw [← hout]
    exact exec_keeps_enc_closed hab ha (hi i hmem)
  · intro hm hi
    refine execAll_keeps (P := fun a => (a.decMode = .idle ∨ a.decMode = s.decMode) ∧ a.decOut = s.decOut)
      (fun i hmem a b ⟨ha, hout⟩ hab => ?_) h ⟨.inr rfl, rfl⟩
    have hclosed : a.decMode = .idle ∨ a.decMode = .error := by
      rcases ha with ha | ha
      · exact .inl ha
      · rwa [ha]
    obtain ⟨hmode, hsame⟩ := exec_keeps_dec_closed hab hclosed (hi i hmem)
    refine ⟨?_, hsame.trans hout⟩
    rcases hmode with hidle | hkept
    · exact .inl hidle
    · rwa [hkept]

end Sys2Proof.Machine
end

section
/-! The step (20_memory.md R46 to R51; 70_reset_and_hazards.md R151, R161, R162): a command that fits is taken, and while none can
be taken the host acts. -/

namespace Sys2Proof.Machine

/-! ### A command word -/

theorem executeWord_of_decode {w : CmdWord} {i : Instr} (hw : decode w = .ok i) (s : State) : executeWord w s = exec i s := by
  rw [executeWord, hw]

theorem executeWord_of_illegal {w : CmdWord} {e : DecodeError} (hw : decode w = .error e) (s : State) :
    executeWord w s = s.illegalCommand := by
  rw [executeWord, hw]

theorem executeWord_encode (i : Instr) (s : State) : executeWord (encode i) s = exec i s :=
  executeWord_of_decode (decodeOfEncodeIsTheCommand i) s

theorem executeWord_answers (w : CmdWord) (s : State) : ∃ t, executeWord w s = .next t := by
  rcases executeWord_cases w s with ⟨i, -, h⟩ | ⟨e, -, h⟩ <;> rw [h]
  · exact exec_answers i s
  · exact ⟨_, illegalCommand_eq s⟩

/-- A word leaves the host's side alone, whether it is a command or not (R137, R148). -/
theorem executeWord_sameHostSide {w : CmdWord} {s t : State} (h : executeWord w s = .next t) : SameHostSide s t := by
  rcases executeWord_cases w s with ⟨i, -, hw⟩ | ⟨e, -, hw⟩ <;> rw [hw] at h
  · exact exec_sameHostSide h
  · rw [illegalCommand_eq] at h
    cases h
    exact ⟨rfl, rfl, rfl, rfl, rfl, rfl⟩

theorem executeWord_responds {w : CmdWord} {s t : State} (h : executeWord w s = .next t) :
    ∃ r : Response, t.responses = s.responses ++ [r.word] := by
  rcases executeWord_cases w s with ⟨i, -, hw⟩ | ⟨e, -, hw⟩ <;> rw [hw] at h
  · exact exec_responds h
  · rw [illegalCommand_eq] at h
    cases h
    exact ⟨_, rfl⟩

/-! ### Steps that take a command -/

/-- The room of R50 in terms of the depth. -/
theorem lacksRoom_of_withinDepth {d : OutDepth} {before after : Nat} (h : WithinDepth d after) :
    lacksRoom d before after = false := by
  cases d with
  | unbounded => rfl
  | finite n =>
    have hfits : ¬ n < after := Nat.not_lt.mpr h
    simp [lacksRoom, hfits]

theorem not_overfills_of_withinDepth {s t : State} (he : WithinDepth s.cfg.outDepth t.encOut.length)
    (hd : WithinDepth s.cfg.outDepth t.decOut.length) : s.overfills t = false := by
  rw [State.overfills, lacksRoom_of_withinDepth he, lacksRoom_of_withinDepth hd, Bool.or_false]

/-- Taking the oldest command leaves those behind it issued. -/
theorem dropIssued_of_sameHostSide {s t : State} {w : CmdWord} {rest : List CmdWord} (hi : s.issued = w :: rest)
    (h : SameHostSide s t) : t.dropIssued = { t with issued := rest, lastEnd := .answered } := by
  obtain ⟨hissued, -⟩ := h
  rw [State.dropIssued, hissued, hi, List.tail_cons]

/-- Settles O7: the beats fit, so that the command is taken, and exec leaves what is issued alone. -/
theorem stepRunsTheDecodedCommand : Obligations.StepRunsTheDecodedCommand := by
  unfold Obligations.StepRunsTheDecodedCommand
  intro s t w rest i hi hw h he hd
  rw [step_takes hi ((executeWord_of_decode hw s).trans h) (not_overfills_of_withinDepth he hd),
    dropIssued_of_sameHostSide hi (exec_sameHostSide h)]

/-- With no bound on the channels the oldest word is taken. -/
theorem step_of_unbounded {s t : State} {w : CmdWord} {rest : List CmdWord} (hd : s.cfg.outDepth = .unbounded)
    (hi : s.issued = w :: rest) (h : executeWord w s = .next t) :
    step s = .next { t with issued := rest, lastEnd := .answered } := by
  rw [step_takes hi h (overfills_unbounded s t hd), dropIssued_of_sameHostSide hi (executeWord_sameHostSide h)]

/-- Settles O9: every word answers, and leaves the host's interactions alone. -/
theorem unboundedChannelsNeverHold : Obligations.UnboundedChannelsNeverHold := by
  unfold Obligations.UnboundedChannelsNeverHold
  intro s w rest hd hi
  obtain ⟨t, ht⟩ := executeWord_answers w s
  obtain ⟨r, hr⟩ := executeWord_responds ht
  obtain ⟨-, -, -, hinbox, -⟩ := executeWord_sameHostSide ht
  exact ⟨_, r.word, step_of_unbounded hd hi ht, rfl, hr, hinbox⟩

/-- Settles O10: an illegal word emits nothing, so that it fits whatever the channels hold. -/
theorem illegalWordOnlyResponds : Obligations.IllegalWordOnlyResponds := by
  unfold Obligations.IllegalWordOnlyResponds
  intro s w rest e hi hw
  have hword : executeWord w s = .next (s.respond { status := .illegalCommand }) := executeWord_of_illegal hw s
  have hfits : s.overfills (s.respond { status := .illegalCommand }) = false := by
    simp only [State.overfills, State.respond_encOut, State.respond_decOut, lacksRoom_self, Bool.or_false]
  rw [step_takes hi hword hfits, dropIssued_of_sameHostSide hi (executeWord_sameHostSide hword), State.respond,
    word_illegalCommand]
  rfl

/-- Settles O14: a step takes a command, which answers, or is the host's. -/
theorem everyStepAnswersNext : Obligations.EveryStepAnswersNext := by
  unfold Obligations.EveryStepAnswersNext
  intro s
  cases hi : s.issued with
  | nil => exact ⟨_, step_idle hi⟩
  | cons w rest =>
    obtain ⟨t, ht⟩ := executeWord_answers w s
    cases ho : s.overfills t with
    | false => exact ⟨_, step_takes hi ht ho⟩
    | true => exact ⟨_, step_holds hi ht ho⟩

/-! ### Steps of the host -/

/-- While no command can be taken, a step is the host's (R50, R161). -/
theorem step_of_waiting {s : State} (h : Waiting s) : step s = .next s.hostStep := by
  rcases h with hi | ⟨w, rest, t, n, hi, ht, hd, hroom⟩
  · exact step_idle hi
  · exact step_holds hi ht ((overfills_iff s t).mpr ⟨n, hd, hroom⟩)

theorem hostStep_of_nil {s : State} (h : s.inbox = []) : s.hostStep = s := by
  rw [State.hostStep, h]

theorem hostStep_of_cons {s : State} {e : HostEvent} {es : List HostEvent} (h : s.inbox = e :: es) :
    s.hostStep = ({ s with inbox := es }).hostAct e := by
  rw [State.hostStep, h]

/-- A step of a waiting block on which the host does `e`. -/
theorem step_of_waiting_cons {s : State} {e : HostEvent} {es : List HostEvent} (hw : Waiting s) (h : s.inbox = e :: es) :
    step s = .next (({ s with inbox := es }).hostAct e) := by
  rw [step_of_waiting hw, hostStep_of_cons h]

theorem popEnc_of_nil {s : State} (h : s.encOut = []) : s.popEnc = s := by
  rw [State.popEnc, h]

theorem popEnc_of_cons {s : State} {b : Byte} {bs : List Byte} (h : s.encOut = b :: bs) :
    s.popEnc = { s with encOut := bs, encPopped := s.encPopped ++ [b] } := by
  rw [State.popEnc, h]

theorem popDec_of_nil {s : State} (h : s.decOut = []) : s.popDec = s := by
  rw [State.popDec, h]

theorem popDec_of_cons {s : State} {b : DecBeat} {bs : List DecBeat} (h : s.decOut = b :: bs) :
    s.popDec = { s with decOut := bs, decPopped := s.decPopped ++ [b] } := by
  rw [State.popDec, h]

/-- Settles O11: the step is the host's pop, of an empty channel or not. -/
theorem popReturnsTheHeadBeat : Obligations.PopReturnsTheHeadBeat := by
  unfold Obligations.PopReturnsTheHeadBeat
  intro s es hw
  -- the host acts on `s` with the interaction taken off the inbox, which no channel reads
  refine ⟨fun hin => ⟨fun hout => ?_, fun b bs hout => ?_⟩, fun hin => ⟨fun hout => ?_, fun b bs hout => ?_⟩⟩ <;>
    rw [step_of_waiting_cons hw hin, State.hostAct]
  · rw [popEnc_of_nil (s := { s with inbox := es }) hout]
  · rw [popEnc_of_cons (s := { s with inbox := es }) hout]
  · rw [popDec_of_nil (s := { s with inbox := es }) hout]
  · rw [popDec_of_cons (s := { s with inbox := es }) hout]

/-- Settles O12: the step is the host's reset, which writes every field of the block as `State.reset` has it. -/
theorem resetEventGivesTheResetState : Obligations.ResetEventGivesTheResetState := by
  unfold Obligations.ResetEventGivesTheResetState
  intro s es hw hin
  rw [step_of_waiting_cons hw hin, State.hostAct, State.hostReset]
  simp only [List.isEmpty_iff]
  rfl

/-- Settles O13: the step is the host's, who issues a command or does nothing. -/
theorem issuedCommandWaitsItsTurn : Obligations.IssuedCommandWaitsItsTurn := by
  unfold Obligations.IssuedCommandWaitsItsTurn
  intro s hw
  refine ⟨fun w es hin => ?_, fun hin => ?_⟩
  · rw [step_of_waiting_cons hw hin, State.hostAct, State.issueCommand]
  · rw [step_of_waiting hw, hostStep_of_nil hin]

/-- Settles O8: a block that holds a command waits, so that the host's silence and its pops are those of any waiting block. -/
theorem heldCommandWaitsForAPop : Obligations.HeldCommandWaitsForAPop := by
  unfold Obligations.HeldCommandWaitsForAPop
  intro s t w rest n hi ht hd hroom
  have hw : Waiting s := .inr ⟨w, rest, t, n, hi, ht, hd, hroom⟩
  exact ⟨(issuedCommandWaitsItsTurn s hw).2, fun es b bs hin => ((popReturnsTheHeadBeat s es hw).1 hin).2 b bs,
    fun es b bs hin => ((popReturnsTheHeadBeat s es hw).2 hin).2 b bs⟩

/-! ### The parameters -/

theorem hostAct_cfg (s : State) (e : HostEvent) : (s.hostAct e).cfg = s.cfg := by
  cases e with
  | issue w => rfl
  | popEnc => rcases popEnc_cases s with ⟨-, h⟩ | ⟨b, bs, -, h⟩ <;> rw [State.hostAct, h]
  | popDec => rcases popDec_cases s with ⟨-, h⟩ | ⟨b, bs, -, h⟩ <;> rw [State.hostAct, h]
  | reset => rfl

theorem hostStep_cfg (s : State) : s.hostStep.cfg = s.cfg := by
  rcases hostStep_cases s with ⟨-, h⟩ | ⟨e, es, -, h⟩ <;> rw [h]
  exact hostAct_cfg _ e

/-- Settles O15: neither a command nor an interaction of the host writes the parameters. -/
theorem stepKeepsTheParameters : Obligations.StepKeepsTheParameters := by
  unfold Obligations.StepKeepsTheParameters
  intro s t h
  rcases step_takes_or_waits h with ⟨w, u, hu, rfl⟩ | ⟨-, rfl⟩
  · obtain ⟨-, -, -, -, hcfg, -⟩ := executeWord_sameHostSide hu
    exact hcfg
  · exact hostStep_cfg s

/-! ### Runs of the commands issued -/

/-- What is issued, and how the last command ended, is nothing to a command. -/
theorem exec_of_queue {i : Instr} {s t : State} (h : exec i s = .next t) (queue : List CmdWord) (last : CommandEnd) :
    exec i { s with issued := queue, lastEnd := last } = .next { t with issued := queue, lastEnd := last } := by
  cases hunit : i.unit with
  | enc =>
    obtain ⟨r, hr⟩ := exec_enc_elsewhere hunit h
    have ht := h.symm.trans (hr s)
    injection ht with ht
    rw [ht]
    exact hr { s with issued := queue, lastEnd := last }
  | dec =>
    obtain ⟨r, hr⟩ := exec_dec_elsewhere hunit h
    have ht := h.symm.trans (hr s rfl)
    injection ht with ht
    rw [ht]
    exact hr { s with issued := queue, lastEnd := last } rfl
  | lut | all =>
    refine ExecCase.exec_eq ?_
    cases exec_cases h with
    | lutFwdFound v hv => exact .lutFwdFound v hv
    | lutFwdRefused v hv => exact .lutFwdRefused v hv
    | lutRevAccepted b x hr => exact .lutRevAccepted b x hr
    | lutRevRejected b hr => exact .lutRevRejected b hr
    | stat => exact .stat
    | _ => cases hunit

theorem execAll_of_queue {is : List Instr} {s t : State} (h : execAll is s = .next t) (queue : List CmdWord)
    (last : CommandEnd) :
    execAll is { s with issued := queue, lastEnd := last } = .next { t with issued := queue, lastEnd := last } := by
  induction is generalizing s with
  | nil =>
    cases h
    rfl
  | cons i is ih =>
    obtain ⟨u, hu⟩ := exec_answers i s
    rw [execAll_cons hu] at h
    rw [execAll_cons (exec_of_queue hu queue last), ih h]

theorem execAll_answers (is : List Instr) (s : State) : ∃ t, execAll is s = .next t := by
  induction is generalizing s with
  | nil => exact ⟨s, rfl⟩
  | cons i is ih =>
    obtain ⟨u, hu⟩ := exec_answers i s
    rw [execAll_cons hu]
    exact ih u

theorem run_succ {s t : State} (k : Nat) (h : step s = .next t) : core.run (k + 1) s = core.run k t := by
  have hstep : core.step s = .next t := h
  simp only [Host.Core.run, hstep]

/-- How the last command ended, after the commands of a list have been taken. -/
def endAfter (is : List Instr) (last : CommandEnd) : CommandEnd := if is = [] then last else .answered

theorem endAfter_answered (is : List Instr) : endAfter is .answered = .answered := by
  rw [endAfter, ite_self]

/-- With unbounded channels the commands at the front of what is issued are taken, one a step, and those behind them wait. -/
theorem run_front {is : List Instr} {queue : List CmdWord} {s t : State} (hi : s.issued = is.map encode ++ queue)
    (hd : s.cfg.outDepth = .unbounded) (h : execAll is s = .next t) :
    core.run is.length s = .next { t with issued := queue, lastEnd := endAfter is s.lastEnd } := by
  induction is generalizing s t with
  | nil =>
    cases h
    obtain rfl : s.issued = queue := hi
    rfl
  | cons i is ih =>
    obtain ⟨u, hu⟩ := exec_answers i s
    rw [execAll_cons hu] at h
    obtain ⟨-, -, -, -, hcfg, -⟩ := exec_sameHostSide hu
    have hstep : step s = .next { u with issued := is.map encode ++ queue, lastEnd := .answered } :=
      step_of_unbounded hd hi ((executeWord_encode i s).trans hu)
    rw [List.length_cons, run_succ _ hstep, ih rfl (hcfg ▸ hd) (execAll_of_queue h _ _), endAfter_answered]
    rfl

/-- The host's interactions to come are nothing to commands. -/
theorem execAll_inbox {is : List Instr} {s t : State} (h : execAll is s = .next t) : t.inbox = s.inbox := by
  refine execAll_keeps (P := fun a => a.inbox = s.inbox) (fun i _ a b ha hab => ?_) h rfl
  obtain ⟨-, -, -, hinbox, -⟩ := exec_sameHostSide hab
  exact hinbox.trans ha

/-- A run is not over while a command waits (R162). -/
theorem runOver_of_issued {s : State} (h : s.issued ≠ []) : runOver s = false := by
  simp [runOver, h]

/-- Settles O20: the run of the first `k` commands, at `k` the length of the list and below it. -/
theorem issuedCommandsRunInOrder : Obligations.IssuedCommandsRunInOrder := by
  unfold Obligations.IssuedCommandsRunInOrder
  intro is s hi hd
  obtain ⟨t, ht⟩ := execAll_answers is s
  have hall : s.issued = is.map encode ++ [] := by rw [hi, List.append_nil]
  refine ⟨t, _, ht, run_front hall hd ht, rfl, fun hin hne => ⟨?_, fun k hk => ?_⟩⟩
  · have hinbox : t.inbox = [] := (execAll_inbox ht).trans hin
    simp [runOver, endAfter, hne, hinbox]
  · obtain ⟨v, hv⟩ := execAll_answers (is.take k) s
    have hfront : s.issued = (is.take k).map encode ++ (is.drop k).map encode := by
      rw [hi, ← List.map_append, List.take_append_drop]
    have hrun := run_front hfront hd hv
    rw [List.length_take_of_le hk.le] at hrun
    refine ⟨_, hrun, runOver_of_issued ?_⟩
    simpa using hk

end Sys2Proof.Machine
end

section
/-! The lookups on the alphabet and off it (40_alphabet_lut.md R79 to R84). -/

namespace Sys2Proof.Machine

/-- Settles O21: the table is the string, its residues are the values, and so no symbol stands there twice. -/
theorem alphabetIsTheStringOfR79 : Obligations.AlphabetIsTheStringOfR79 := by
  unfold Obligations.AlphabetIsTheStringOfR79
  exact ⟨fun d => ⟨fwd_eq_symbolByte d, fwd_toNat_mod d, fwd_printable d⟩, fun _ _ h => fwd_injective h⟩

/-- R83: a filtered value is at most 40, under either filter. -/
theorem rev_le {f : RevFilter} {b : Byte} {x : Value6} (h : rev f b = some x) : x.toNat ≤ 40 := by
  cases f with
  | modular =>
    obtain ⟨-, -, hmod, hx⟩ := (revModular_eq_some_iff b x).mp h
    omega
  | strict =>
    obtain ⟨d, -, hx⟩ := (revStrict_eq_some_iff b x).mp h
    omega

/-- R82: the residues below 41 between the bounds 32 and 127 are three runs of bytes. -/
theorem revModular_isSome_iff (b : Byte) : (revModular b).isSome = true ↔
    (0x21 ≤ b.toNat ∧ b.toNat ≤ 0x28) ∨ (0x30 ≤ b.toNat ∧ b.toNat ≤ 0x58) ∨ (0x60 ≤ b.toNat ∧ b.toNat ≤ 0x7E) := by
  have hsome : (revModular b).isSome = true ↔ 32 < b.toNat ∧ b.toNat < 127 ∧ b.toNat % 48 < 41 := by
    simp only [revModular, Option.isSome_ite]
  rw [hsome]
  omega

/-- Off the alphabet STRICT rejects. -/
theorem revStrict_eq_none {b : Byte} (h : ∀ d : Digit, fwd d ≠ b) : revStrict b = none := by
  refine Option.eq_none_iff_forall_ne_some.mpr fun x hx => ?_
  obtain ⟨d, hd, -⟩ := (revStrict_eq_some_iff b x).mp hx
  exact h d hd

/-- The filters differ on a byte exactly if MODULAR accepts it and the alphabet does not hold it (R84). -/
theorem rev_differ_iff (b : Byte) :
    rev .modular b ≠ rev .strict b ↔ (rev .modular b).isSome = true ∧ ∀ d : Digit, fwd d ≠ b := by
  constructor
  · intro hdiffer
    have hoff : ∀ d : Digit, fwd d ≠ b := by
      rintro d rfl
      exact hdiffer ((rev_fwd .modular d).trans (rev_fwd .strict d).symm)
    have hstrict : rev .strict b = none := revStrict_eq_none hoff
    exact ⟨Option.isSome_iff_ne_none.mpr (hstrict ▸ hdiffer), hoff⟩
  · rintro ⟨hsome, hoff⟩ heq
    have hstrict : rev .strict b = none := revStrict_eq_none hoff
    rw [heq, hstrict] at hsome
    cases hsome

/-- R84: a count over all 256 bytes. -/
theorem rev_differ_count :
    ((List.finRange 256).filter (fun n => rev .modular (BitVec.ofFin n) != rev .strict (BitVec.ofFin n))).length = 39 := by
  decide +kernel

/-- Settles O23: a symbol's value is its digit under either filter, so the filters can differ only off the alphabet. -/
theorem reverseLookupsAgreeOnTheAlphabet : Obligations.ReverseLookupsAgreeOnTheAlphabet := by
  unfold Obligations.ReverseLookupsAgreeOnTheAlphabet
  exact ⟨rev_fwd, fun _ _ _ => rev_le, revModular_isSome_iff, rev_differ_iff, rev_differ_count⟩

end Sys2Proof.Machine
end

section
/-! The invariant of the block (10_state.md R34): each unit's share of the state is sound by itself, a command of a unit keeps its
unit's share sound and leaves the other's alone, and R50 keeps the channels within their depth. -/

namespace Sys2Proof.Machine

/-! ### The two units -/

/-- The invariant's part that speaks of ENC: R34(a) and R70. -/
structure EncUnit.Sound (e : EncUnit) : Prop where
  heldByte : e.hv = true → e.mode = .bytes
  beats : ∀ b ∈ e.out, EncBeatLegal b

/-- The invariant's part that speaks of DEC: R34(b) to (e), R133 and R71. -/
structure DecUnit.Sound (d : DecUnit) : Prop where
  gathered : d.cnt ≠ 0 → d.mode = .bytes ∨ d.mode = .u16
  errorMode : d.mode = .error ↔ d.ek ≠ .none
  record : RecordLegal d.ek d.ev.toNat d.el.toNat
  firstValue : d.cnt ≠ 0 → d.v0.toNat ≤ 40
  secondValue : d.cnt = 2 → d.v1.toNat ≤ 40
  beats : ∀ b ∈ d.out, DecBeatLegal b

/-- The invariant is that of each unit, with the depth of the channels and the form of the responses. -/
theorem inv_iff (s : State) : Inv s ↔ (encUnit s).Sound ∧ (decUnit s).Sound ∧
    (WithinDepth s.cfg.outDepth s.encOut.length ∧ WithinDepth s.cfg.outDepth s.decOut.length) ∧
    ∀ w ∈ s.responses, ResponseLegal w := by
  constructor
  · intro h
    exact ⟨⟨h.heldByte, h.encBeats⟩, ⟨h.gathered, h.errorMode, h.record, h.firstValue, h.secondValue, h.decBeats⟩,
      ⟨h.encDepth, h.decDepth⟩, h.responsesLegal⟩
  · rintro ⟨henc, hdec, ⟨hencDepth, hdecDepth⟩, hresp⟩
    exact { heldByte := henc.heldByte, gathered := hdec.gathered, errorMode := hdec.errorMode, record := hdec.record,
            firstValue := hdec.firstValue, secondValue := hdec.secondValue, encBeats := henc.beats, decBeats := hdec.beats,
            encDepth := hencDepth, decDepth := hdecDepth, responsesLegal := hresp }

/-! ### Reset -/

theorem encUnit_reset_sound (s : State) : (encUnit s.hostReset).Sound :=
  ⟨fun h => (by cases h), fun b hb => (by cases hb)⟩

theorem decUnit_reset_sound (s : State) : (decUnit s.hostReset).Sound :=
  ⟨fun h => absurd rfl h, ⟨fun h => (by cases h), fun h => absurd rfl h⟩, ⟨rfl, rfl⟩, fun h => absurd rfl h,
    fun h => (by cases h), fun b hb => (by cases hb)⟩

/-- An empty channel is within every depth. -/
theorem withinDepth_zero (d : OutDepth) : WithinDepth d 0 := by
  cases d with
  | unbounded => trivial
  | finite n => exact Nat.zero_le n

/-- The reset event makes good what it resets, and keeps the responses. -/
theorem inv_hostReset {s : State} (h : Inv s) : Inv s.hostReset :=
  (inv_iff _).mpr ⟨encUnit_reset_sound s, decUnit_reset_sound s, ⟨withinDepth_zero _, withinDepth_zero _⟩, h.responsesLegal⟩

/-- Settles O18: the reset state is what the reset event makes of it. -/
theorem resetMeetsTheInvariant : Obligations.ResetMeetsTheInvariant := by
  unfold Obligations.ResetMeetsTheInvariant
  exact (inv_iff _).mpr ⟨encUnit_reset_sound State.reset, decUnit_reset_sound State.reset,
    ⟨withinDepth_zero _, withinDepth_zero _⟩, fun w hw => (by cases hw)⟩

/-! ### Commands of ENC -/

theorem tripleSymbols_legal (u : Value16) : ∀ b ∈ tripleSymbols u, EncBeatLegal b := by
  intro b hb
  simp only [tripleSymbols, List.mem_cons, List.not_mem_nil, or_false] at hb
  rcases hb with rfl | rfl | rfl <;> exact ⟨_, rfl⟩

theorem tailSymbols_legal (x : Byte) : ∀ b ∈ tailSymbols x, EncBeatLegal b := by
  intro b hb
  simp only [tailSymbols] at hb
  split at hb
  · simp only [List.mem_cons, List.not_mem_nil, or_false] at hb
    rcases hb with rfl | rfl <;> exact ⟨_, rfl⟩
  · simp only [List.mem_cons, List.not_mem_nil, or_false] at hb
    exact ⟨_, hb⟩

/-- A command keeps ENC's share sound. -/
theorem exec_keeps_encUnit_sound {i : Instr} {s t : State} (h : exec i s = .next t) (hs : (encUnit s).Sound) :
    (encUnit t).Sound := by
  have hmore {bs : List Byte} (hbs : ∀ b ∈ bs, EncBeatLegal b) : ∀ b ∈ s.encOut ++ bs, EncBeatLegal b :=
    List.forall_mem_append.mpr ⟨hs.beats, hbs⟩
  cases exec_cases h with
  | encStartBytes | encStartU16 | encEndClosed | encAborted => exact ⟨fun hv => (by cases hv), hs.beats⟩
  | encByteHeld b hm hv => exact ⟨fun _ => hm, hs.beats⟩
  | encBytePaired b hm hv => exact ⟨fun hv => (by cases hv), hmore (tripleSymbols_legal _)⟩
  | encU16Emitted u hm => exact ⟨hs.heldByte, hmore (tripleSymbols_legal u)⟩
  | encEndTail hm hv => exact ⟨fun hv => (by cases hv), hmore (tailSymbols_legal _)⟩
  | _ => exact hs

/-! ### Commands of DEC -/

/-- A triplet of filtered values is at most the one of three values 40 (R113). -/
theorem tripletValue_le {v0 v1 v2 : Value6} (h0 : v0.toNat ≤ 40) (h1 : v1.toNat ≤ 40) (h2 : v2.toNat ≤ 40) :
    tripletValue v0 v1 v2 ≤ 68920 := by
  rw [tripletValue_eq]
  omega

theorem doubleValue_le {v0 v1 : Value6} (h0 : v0.toNat ≤ 40) (h1 : v1.toNat ≤ 40) : doubleValue v0 v1 ≤ 1680 := by
  unfold doubleValue
  omega

theorem byteBeats_legal (u : Nat) : ∀ b ∈ byteBeats u, DecBeatLegal b := by
  intro b hb
  simp only [byteBeats, List.mem_cons, List.not_mem_nil, or_false] at hb
  rcases hb with rfl | rfl <;> exact .inr ⟨_, rfl⟩

theorem valueBeats_legal (u : Nat) : ∀ b ∈ valueBeats u, DecBeatLegal b := by
  intro b hb
  obtain rfl := List.mem_singleton.mp hb
  exact .inl ⟨_, rfl⟩

theorem narrowBeat_legal (x : Byte) : ∀ b ∈ [narrowBeat x], DecBeatLegal b := by
  intro b hb
  obtain rfl := List.mem_singleton.mp hb
  exact .inr ⟨_, rfl⟩

section
variable {s : State}

/-- In a session no error is recorded (R34(c)). -/
theorem DecUnit.Sound.decEk_eq_none (hs : (decUnit s).Sound) (hm : s.decMode = .bytes ∨ s.decMode = .u16) : s.decEk = .none := by
  by_contra hek
  have herror : s.decMode = .error := hs.errorMode.mpr hek
  rcases hm with hm | hm <;> cases hm.symm.trans herror

theorem DecUnit.Sound.emitDec (hs : (decUnit s).Sound) {bs : List DecBeat} (hbs : ∀ b ∈ bs, DecBeatLegal b) :
    (decUnit (s.emitDec bs)).Sound :=
  { hs with beats := List.forall_mem_append.mpr ⟨hs.beats, hbs⟩ }

/-- A group that is used up leaves nothing to say of its values (R107). -/
theorem DecUnit.Sound.clearGroup (hs : (decUnit s).Sound) : (decUnit s.clearGroup).Sound :=
  ⟨fun h => absurd rfl h, hs.errorMode, hs.record, fun h => absurd rfl h, fun h => (by cases h), hs.beats⟩

/-- A session that closes has no error recorded (R108, R109). -/
theorem DecUnit.Sound.closeDec (hs : (decUnit s).Sound) (hm : s.decMode = .bytes ∨ s.decMode = .u16) :
    (decUnit s.closeDec).Sound := by
  have hek : s.decEk = .none := hs.decEk_eq_none hm
  exact ⟨fun h => absurd rfl h, ⟨fun h => (by cases h), fun h => absurd hek h⟩, hs.record, fun h => absurd rfl h,
    fun h => (by cases h), hs.beats⟩

/-- An error is entered with a record that its cause writes and that fits in its fields (R111, R133). -/
theorem DecUnit.Sound.enterError (hs : (decUnit s).Sound) {k : ErrKind} {value limit : Nat} (hk : k ≠ .none)
    (hrecord : RecordLegal k value limit) (hvalue : value < 2 ^ 17) (hlimit : limit < 2 ^ 16) :
    (decUnit (s.enterError k value limit)).Sound := by
  refine ⟨fun h => absurd rfl h, ⟨fun _ => hk, fun _ => rfl⟩, ?_, fun h => absurd rfl h, fun h => (by cases h), hs.beats⟩
  have hev : (BitVec.ofNat 17 value).toNat = value := by rw [BitVec.toNat_ofNat, Nat.mod_eq_of_lt hvalue]
  have hel : (BitVec.ofNat 16 limit).toNat = limit := by rw [BitVec.toNat_ofNat, Nat.mod_eq_of_lt hlimit]
  simpa only [decUnit, State.enterError, hev, hel] using hrecord

/-- Leaving ERROR clears the record (R143). -/
theorem DecUnit.Sound.leaveError (hs : (decUnit s).Sound) {m : DecMode} (hm : m ≠ .error) : (decUnit (s.leaveError m)).Sound :=
  ⟨fun h => absurd rfl h, ⟨fun h => absurd h hm, fun h => absurd rfl h⟩, ⟨rfl, rfl⟩, fun h => absurd rfl h,
    fun h => (by cases h), hs.beats⟩

/-- A session opens as one that left ERROR, with its values cleared, of which nothing is said (R105, R106). -/
theorem DecUnit.Sound.openDec (hs : (decUnit s).Sound) {m : DecMode} (hm : m ≠ .error) : (decUnit (s.openDec m)).Sound :=
  ⟨fun h => absurd rfl h, (hs.leaveError hm).errorMode, ⟨rfl, rfl⟩, fun h => absurd rfl h, fun h => (by cases h), hs.beats⟩

end

/-- A command keeps DEC's share sound. -/
theorem exec_keeps_decUnit_sound {i : Instr} {s t : State} (h : exec i s = .next t) (hs : (decUnit s).Sound) :
    (decUnit t).Sound := by
  have hfirst (hc : s.decCnt = 2) : s.decV0.toNat ≤ 40 := hs.firstValue (by simp [decUnit, hc])
  have hsecond (hc : s.decCnt = 2) : s.decV1.toNat ≤ 40 := hs.secondValue hc
  cases exec_cases h with
  | decStartBytes => exact hs.openDec (m := .bytes) (by decide)
  | decStartU16 => exact hs.openDec (m := .u16) (by decide)
  | decSymFirst b x hm hr hc =>
    exact ⟨fun _ => hm, hs.errorMode, hs.record, fun _ => rev_le hr, fun h => (by cases h), hs.beats⟩
  | decSymSecond b x hm hr hc =>
    exact ⟨fun _ => hm, hs.errorMode, hs.record, fun _ => hs.firstValue (by simp [decUnit, hc]), fun _ => rev_le hr, hs.beats⟩
  | decSymOverflow b x hm hr hc hu =>
    have hle := tripletValue_le (hfirst hc) (hsecond hc) (rev_le hr)
    exact hs.enterError (k := .overflow) (by decide) (.inl ⟨hu, hle, rfl⟩) (tripletValue_lt _ _ _) (by decide)
  | decSymOctets b x hm hr hc hu => exact hs.clearGroup.emitDec (byteBeats_legal _)
  | decSymValue b x hm hr hc hu => exact hs.clearGroup.emitDec (valueBeats_legal _)
  | decEndClosed hm hc => exact hs.closeDec hm
  | decEndSingle hm hc => exact (hs.emitDec (narrowBeat_legal _)).closeDec (.inl hm)
  | decEndUnderflow hm hc hu => exact hs.enterError (k := .underflow) (by decide) ⟨hu, rfl⟩ (by omega) (by decide)
  | decEndOverflow hm hc hu =>
    have hle := doubleValue_le (hfirst hc) (hsecond hc)
    exact hs.enterError (k := .overflow) (by decide) (.inr ⟨hu, hle, rfl⟩) (by omega) (by decide)
  | decEndDouble hm hc hu hv => exact (hs.emitDec (narrowBeat_legal _)).closeDec (.inl hm)
  | decEndContract hm hc =>
    have hcount : s.decCnt.val = 1 ∨ s.decCnt.val = 2 := by omega
    exact hs.enterError (k := .contract) (by decide) ⟨hcount, rfl⟩ (by omega) (by decide)
  | decAborted => exact hs.leaveError (m := .idle) (by decide)
  | _ => exact hs

/-! ### Steps -/

/-- Room for the beats keeps a channel within its depth (R50). -/
theorem withinDepth_of_not_lacksRoom {d : OutDepth} {before after : Nat} (hroom : lacksRoom d before after = false)
    (h : WithinDepth d before) : WithinDepth d after := by
  cases d with
  | unbounded => trivial
  | finite n =>
    have hbefore : before ≤ n := h
    have hfits : before < after → after ≤ n := by simpa [lacksRoom] using hroom
    show after ≤ n
    omega

/-- What a word that fits does to a state keeps the invariant. -/
theorem inv_of_executeWord {w : CmdWord} {s t : State} (hs : Inv s) (h : executeWord w s = .next t)
    (ho : s.overfills t = false) : Inv t := by
  obtain ⟨henc, hdec, ⟨hencDepth, hdecDepth⟩, hresp⟩ := (inv_iff s).mp hs
  obtain ⟨-, -, -, -, hcfg, -⟩ := executeWord_sameHostSide h
  obtain ⟨r, hr⟩ := executeWord_responds h
  obtain ⟨hroomEnc, hroomDec⟩ := Bool.or_eq_false_iff.mp ho
  have hunits : (encUnit t).Sound ∧ (decUnit t).Sound := by
    rcases executeWord_cases w s with ⟨i, -, hw⟩ | ⟨e, -, hw⟩ <;> rw [hw] at h
    · exact ⟨exec_keeps_encUnit_sound h henc, exec_keeps_decUnit_sound h hdec⟩
    · rw [illegalCommand_eq] at h
      cases h
      exact ⟨henc, hdec⟩
  refine (inv_iff t).mpr ⟨hunits.1, hunits.2, ⟨?_, ?_⟩, ?_⟩
  · rw [hcfg]
    exact withinDepth_of_not_lacksRoom hroomEnc hencDepth
  · rw [hcfg]
    exact withinDepth_of_not_lacksRoom hroomDec hdecDepth
  · rw [hr]
    exact List.forall_mem_append.mpr ⟨hresp, List.forall_mem_singleton.mpr (word_legal r)⟩

/-- A channel that gives up its head beat stays within its depth. -/
theorem withinDepth_of_succ {d : OutDepth} {n : Nat} (h : WithinDepth d (n + 1)) : WithinDepth d n := by
  cases d with
  | unbounded => trivial
  | finite m => exact Nat.le_of_succ_le h

/-- A pop takes a beat and touches nothing else that the invariant speaks of (R51). -/
theorem inv_popEnc {s : State} (hs : Inv s) : Inv s.popEnc := by
  rcases popEnc_cases s with ⟨-, h⟩ | ⟨b, bs, hout, h⟩ <;> rw [h]
  · exact hs
  · have hdepth := hs.encDepth
    have hbeats := hs.encBeats
    rw [hout] at hdepth hbeats
    exact { hs with encBeats := (List.forall_mem_cons.mp hbeats).2, encDepth := withinDepth_of_succ hdepth }

theorem inv_popDec {s : State} (hs : Inv s) : Inv s.popDec := by
  rcases popDec_cases s with ⟨-, h⟩ | ⟨b, bs, hout, h⟩ <;> rw [h]
  · exact hs
  · have hdepth := hs.decDepth
    have hbeats := hs.decBeats
    rw [hout] at hdepth hbeats
    exact { hs with decBeats := (List.forall_mem_cons.mp hbeats).2, decDepth := withinDepth_of_succ hdepth }

theorem inv_hostAct {s : State} (hs : Inv s) (e : HostEvent) : Inv (s.hostAct e) := by
  cases e with
  | issue w => exact { hs with }
  | popEnc => exact inv_popEnc hs
  | popDec => exact inv_popDec hs
  | reset => exact inv_hostReset hs

theorem inv_hostStep {s : State} (hs : Inv s) : Inv s.hostStep := by
  rcases hostStep_cases s with ⟨-, h⟩ | ⟨e, es, -, h⟩ <;> rw [h]
  · exact hs
  · have hs' : Inv { s with inbox := es } := { hs with }
    exact inv_hostAct hs' e

/-- Settles O17: a step takes a word that fits, or is the host's. -/
theorem stepKeepsTheInvariant : Obligations.StepKeepsTheInvariant := by
  unfold Obligations.StepKeepsTheInvariant
  intro s t hs h
  rcases step_cases h with ⟨w, rest, u, -, hu, ho, rfl⟩ | ⟨-, rfl⟩ | ⟨w, rest, u, -, -, -, rfl⟩
  · exact { inv_of_executeWord hs hu ho with }
  · exact inv_hostStep hs
  · exact inv_hostStep hs

end Sys2Proof.Machine
end

section
/-! The end of a decoder session (42_decoder.md R108, R109), and which triplets overflow (R112). -/

namespace Sys2Proof.Machine

/-- One value left over is emitted as it is (R108). -/
theorem narrowBeat_setWidth (x : Value6) : narrowBeat (x.setWidth 8) = BitVec.ofNat 17 x.toNat := by
  have hx : x.toNat < 64 := x.isLt
  rw [← BitVec.ofNat_toNat, narrowBeat_ofNat (by omega)]

/-- With nothing gathered, a session that closes writes its mode alone. -/
theorem closeDec_of_none {s : State} (hc : s.decCnt = 0) : s.closeDec = { s with decMode := .idle } := by
  rw [State.closeDec, ← hc]

/-- Settles O33: the mode and the count choose the rule's case, and the double value is the sum in the statement. -/
theorem decEndClosesABytesSession : Obligations.DecEndClosesABytesSession := by
  unfold Obligations.DecEndClosesABytesSession
  refine ⟨rfl, fun s u hu => ⟨fun hm => ?_, fun hm => ?_⟩⟩
  · rw [exec_decEnd_of_not_open hm, illegalSequence_eq_next]
  · obtain rfl : u = doubleValue s.decV0 s.decV1 := hu
    have hvalue : doubleValue s.decV0 s.decV1 < 2 ^ 17 := (doubleValue_lt _ _).trans (by decide)
    rw [exec_decEnd_of_bytes hm]
    refine ⟨fun hc => ?_, fun hc => ?_, fun hc hlow => ?_, fun hc hhigh => ?_, fun hc hlow hhigh => ?_⟩
    · rw [endBytes_of_none hc, closeDec_of_none hc, ok_eq_next]
    · rw [endBytes_of_single hc, narrowBeat_setWidth, ok_eq_next]
      rfl
    · rw [endBytes_of_underflow hc hlow, raiseError_eq_next s .underflow hvalue (by decide)]
      rfl
    · rw [endBytes_of_overflow hc hhigh, raiseError_eq_next s .overflow hvalue (by decide)]
      rfl
    · have hfits : doubleValue s.decV0 s.decV1 < 256 := by omega
      rw [endBytes_of_double hc hlow hfits, narrowBeat_ofNat hfits, ok_eq_next]
      rfl

/-- Settles O34: nothing left over closes the session, and anything left over is CONTRACT with the count as its value. -/
theorem decEndClosesAU16Session : Obligations.DecEndClosesAU16Session := by
  unfold Obligations.DecEndClosesAU16Session
  intro s hm
  rw [exec_decEnd_of_u16 hm]
  refine ⟨fun hc => ?_, fun hc => ?_⟩
  · rw [endU16_of_none hc, closeDec_of_none hc, ok_eq_next]
  · rw [endU16_of_leftover hc, raiseError_eq_next s .contract (by omega) (by decide)]
    rfl

/-- The third value of a group leads into ERROR exactly if the triplet overflows (R102). -/
theorem completeTriplet_error_iff {x : Value6} {s t : State} (hm : s.decMode = .bytes ∨ s.decMode = .u16)
    (h : completeTriplet x s = .next t) : t.decMode = .error ↔ 65536 ≤ tripletValue s.decV0 s.decV1 x := by
  rcases completeTriplet_cases x s with ⟨hu, hx⟩ | ⟨hu, -, hx⟩ | ⟨hu, -, hx⟩ <;> rw [hx] at h <;> cases h
  · exact iff_of_true rfl hu
  · exact iff_of_false (by rcases hm with hm | hm <;> simp [hm]) hu.not_ge
  · exact iff_of_false (by rcases hm with hm | hm <;> simp [hm]) hu.not_ge

/-- Settles O36: 38 · 41² is 1658 below 65536, and two digits make at most 1680. -/
theorem tripletOverflowsByItsHighDigit : Obligations.TripletOverflowsByItsHighDigit := by
  unfold Obligations.TripletOverflowsByItsHighDigit
  intro b s t x hm hc h0 h1 hr h
  rw [exec_decSym_of_accepted hm hr, acceptValue_of_third hc] at h
  rw [completeTriplet_error_iff hm h, tripletValue_eq]
  omega

end Sys2Proof.Machine
end

section
/-! The functions on whole sequences (43_control_and_functions.md R124 to R128; 41_encoder.md R98; 42_decoder.md R115): the
decoders see of a stream what the filter leaves of it, and of the streams of filtered values only the encoder's own decode. -/

namespace Sys2Proof.Machine

/-! ### The filter -/

theorem decodeBytes_congr {f : RevFilter} {bs cs : List Byte} (h : filterBytes f bs = filterBytes f cs) :
    decodeBytes f bs = decodeBytes f cs := by
  rw [decodeBytes, h, decodeBytes]

theorem decodeU16_congr {f : RevFilter} {bs cs : List Byte} (h : filterBytes f bs = filterBytes f cs) :
    decodeU16 f bs = decodeU16 f cs := by
  rw [decodeU16, h, decodeU16]

/-- Dropping the rejected bytes first changes nothing of what the filter leaves (R114). -/
theorem filterBytes_filter (f : RevFilter) (bs : List Byte) :
    filterBytes f (bs.filter (fun b => (rev f b).isSome)) = filterBytes f bs := by
  induction bs with
  | nil => rfl
  | cons b bs ih =>
    unfold filterBytes at ih ⊢
    cases hr : rev f b with
    | none => rw [List.filter_cons_of_neg (by simp [hr]), List.filterMap_cons_none hr, ih]
    | some x => rw [List.filter_cons_of_pos (by simp [hr]), List.filterMap_cons_some hr, List.filterMap_cons_some hr, ih]

/-- Settles O56: what is left of the noisy stream is left of the encoder's, which decodes to what was encoded. -/
theorem noiseDoesNotChangeWhatIsDecoded : Obligations.NoiseDoesNotChangeWhatIsDecoded := by
  unfold Obligations.NoiseDoesNotChangeWhatIsDecoded
  intro f noisy
  constructor
  · intro bs h
    rw [← decodeBytes_congr (filterBytes_filter f noisy), h, decodeBytesOfEncodeBytes]
  · intro ws h
    rw [← decodeU16_congr (filterBytes_filter f noisy), h, decodeU16OfEncodeU16]

/-- Settles O59: of noise the filter leaves nothing. -/
theorem noiseAloneDecodesToNothing : Obligations.NoiseAloneDecodesToNothing := by
  unfold Obligations.NoiseAloneDecodesToNothing
  refine ⟨rfl, rfl, fun f bs h => ?_⟩
  have hnone : filterBytes f bs = filterBytes f [] := List.filterMap_eq_nil_iff.mpr h
  exact ⟨decodeBytes_congr hnone, decodeU16_congr hnone⟩

/-! ### The length of what the encoders emit -/

theorem encodeBytes_length (bs : List Byte) : (encodeBytes bs).length = 3 * (bs.length / 2) +
    (if bs.length % 2 = 1 then (if (bs.getLastD 0).toNat < 41 then 1 else 2) else 0) := by
  induction bs using encodeBytes.induct with
  | case1 b0 b1 rest ih =>
    have hhalf : (rest.length + 1 + 1) / 2 = rest.length / 2 + 1 := by omega
    have hodd : (rest.length + 1 + 1) % 2 = rest.length % 2 := by omega
    rw [encodeBytes, List.length_append, tripleSymbols_length, ih, List.length_cons, List.length_cons, hhalf, hodd]
    cases rest with
    | nil => rfl
    | cons b bs =>
      have hlast : (b0 :: b1 :: b :: bs).getLastD 0 = (b :: bs).getLastD 0 := rfl
      rw [hlast]
      omega
  | case2 b =>
    rw [encodeBytes, tailSymbols_length]
    by_cases hb : b.toNat < 41
    · simp [hb, hb.not_ge]
    · simp [hb, Nat.le_of_not_lt hb]
  | case3 => rfl

theorem encodeU16_length (ws : List Value16) : (encodeU16 ws).length = 3 * ws.length := by
  induction ws with
  | nil => rfl
  | cons w ws ih =>
    rw [encodeU16, List.flatMap_cons, List.length_append, ← encodeU16, ih, tripleSymbols_length, List.length_cons]
    omega

/-- Settles O58: three symbols for a pair or a value, and one or two for an odd last byte. -/
theorem encodedLength : Obligations.EncodedLength := by
  unfold Obligations.EncodedLength
  exact ⟨encodeBytes_length, encodeU16_length⟩

/-! ### The encoder's image -/

/-- A prepended answer is Ok exactly with a rest that is. -/
theorem prepend_eq_ok_iff {α : Type} {xs out : List α} {d : Decoded α} :
    d.prepend xs = .ok out ↔ ∃ rest, d = .ok rest ∧ out = xs ++ rest := by
  cases d with
  | ok rest => simp [Decoded.prepend, eq_comm]
  | err k v l => simp [Decoded.prepend]

/-- Filtered values, as the filter leaves them (R83). -/
def Filtered (vs : List Value6) : Prop := ∀ v ∈ vs, v.toNat ≤ 40

theorem filterBytes_filtered (f : RevFilter) (bs : List Byte) : Filtered (filterBytes f bs) := by
  intro v hv
  obtain ⟨b, -, hb⟩ := List.mem_filterMap.mp hv
  exact rev_le hb

/-- The value of a triplet of filtered values gives its digits back (R115). -/
theorem tripletValue_injective {v0 v1 v2 w0 w1 w2 : Value6} (hv : Filtered [v0, v1, v2]) (hw : Filtered [w0, w1, w2])
    (h : tripletValue v0 v1 v2 = tripletValue w0 w1 w2) : [v0, v1, v2] = [w0, w1, w2] := by
  simp only [Filtered, List.forall_mem_cons, List.not_mem_nil, false_imp_iff, implies_true, and_true] at hv hw
  rw [tripletValue_eq, tripletValue_eq] at h
  have h0 : v0 = w0 := BitVec.eq_of_toNat_eq (by omega)
  have h1 : v1 = w1 := BitVec.eq_of_toNat_eq (by omega)
  have h2 : v2 = w2 := BitVec.eq_of_toNat_eq (by omega)
  rw [h0, h1, h2]

/-- A triplet that does not overflow is what the filter leaves of the symbols of its value. -/
theorem filterBytes_tripleSymbols_of_value (f : RevFilter) {u : Value16} {v0 v1 v2 : Value6} (hv : Filtered [v0, v1, v2])
    (hu : u.toNat = tripletValue v0 v1 v2) : filterBytes f (tripleSymbols u) = [v0, v1, v2] := by
  obtain ⟨w0, w1, w2, hfilter, hvalue⟩ := filterBytes_tripleSymbols f u
  rw [hfilter]
  exact tripletValue_injective (hfilter ▸ filterBytes_filtered f _) hv (hvalue.trans hu)

/-- The two octets of a value are a pair of that value (20_memory.md R42, R43). -/
theorem bytePair_of_octets {u : Nat} (hu : u < 65536) :
    (bytePair (BitVec.ofNat 8 (u / 256)) (BitVec.ofNat 8 (u % 256))).toNat = u := by
  rw [bytePair_toNat, BitVec.toNat_ofNat, BitVec.toNat_ofNat]
  omega

/-- A digit is the filtered value of its number. -/
theorem digitValue_of_le {v : Value6} (hv : v.toNat ≤ 40) : digitValue ⟨v.toNat, by omega⟩ = v :=
  BitVec.eq_of_toNat_eq (digitValue_toNat _)

/-- One filtered value is what the filter leaves of the symbol of its byte (R89). -/
theorem filterBytes_tailSymbols_of_single (f : RevFilter) {v : Value6} (hv : v.toNat ≤ 40) :
    filterBytes f (tailSymbols (v.setWidth 8)) = [v] := by
  have hbyte : v.setWidth 8 = BitVec.ofNat 8 v.toNat := (BitVec.ofNat_toNat 8 v).symm
  have hsymbols : tailSymbols (v.setWidth 8) = [(⟨v.toNat, by omega⟩ : Digit)].map fwd :=
    hbyte ▸ tailSymbols_of_digit ⟨v.toNat, by omega⟩
  rw [hsymbols, filterBytes_map_fwd, List.map_singleton, digitValue_of_le hv]

/-- Two values in range, of which the high one is then at most 6, are what the filter leaves of the symbols of their byte (R89). -/
theorem filterBytes_tailSymbols_of_double (f : RevFilter) {v0 v1 : Value6} (h0 : v0.toNat ≤ 40)
    (hlow : 41 ≤ doubleValue v0 v1) (hhigh : doubleValue v0 v1 < 256) :
    filterBytes f (tailSymbols (BitVec.ofNat 8 (doubleValue v0 v1))) = [v0, v1] := by
  have hbyte : (BitVec.ofNat 8 (doubleValue v0 v1)).toNat = v0.toNat + 41 * v1.toNat := by
    rw [BitVec.toNat_ofNat, Nat.mod_eq_of_lt hhigh, doubleValue]
  obtain ⟨lo, hi, hsymbols, hvalue⟩ := tailSymbols_of_ge (b := BitVec.ofNat 8 (doubleValue v0 v1)) (hbyte ▸ hlow)
  have hlo : digitValue lo = v0 := BitVec.eq_of_toNat_eq (by rw [digitValue_toNat]; omega)
  have hhi : digitValue hi = v1 := BitVec.eq_of_toNat_eq (by rw [digitValue_toNat]; omega)
  rw [hsymbols, filterBytes_map_fwd, List.map_cons, List.map_singleton, hlo, hhi]

/-- Filtered values that decode to bytes are those of what the encoder emits for the bytes. -/
theorem eq_filterBytes_encodeBytes (f : RevFilter) {vs : List Value6} (hvs : Filtered vs) {bs : List Byte}
    (h : decodeByteGroups vs = .ok bs) : vs = filterBytes f (encodeBytes bs) := by
  induction vs using decodeByteGroups.induct generalizing bs with
  | case1 v0 v1 v2 rest u hover =>
    rw [decodeByteGroups, if_pos hover] at h
    cases h
  | case2 v0 v1 v2 rest u hfits ih =>
    have hu : tripletValue v0 v1 v2 < 65536 := Nat.lt_of_not_le hfits
    obtain ⟨hgroup, hrest⟩ := List.forall_mem_append (l₁ := [v0, v1, v2]).mp hvs
    rw [decodeByteGroups_triplet hu] at h
    obtain ⟨more, hmore, rfl⟩ := prepend_eq_ok_iff.mp h
    rw [List.cons_append, List.singleton_append, encodeBytes, filterBytes_append,
      filterBytes_tripleSymbols_of_value f hgroup (bytePair_of_octets hu), ← ih hrest hmore]
    rfl
  | case3 v0 v1 u hunder =>
    rw [decodeByteGroups, if_pos hunder] at h
    cases h
  | case4 v0 v1 u hunder hover =>
    rw [decodeByteGroups, if_neg hunder, if_pos hover] at h
    cases h
  | case5 v0 v1 u hunder hover =>
    have hlow : 41 ≤ doubleValue v0 v1 := Nat.le_of_not_lt hunder
    have hhigh : doubleValue v0 v1 < 256 := Nat.lt_of_not_le hover
    rw [decodeByteGroups_double hlow hhigh] at h
    cases h
    exact (filterBytes_tailSymbols_of_double f (hvs v0 (by simp)) hlow hhigh).symm
  | case6 v0 =>
    cases h
    exact (filterBytes_tailSymbols_of_single f (hvs v0 (by simp))).symm
  | case7 =>
    cases h
    rfl

/-- Filtered values that decode to 16-bit values are those of what the encoder emits for them. -/
theorem eq_filterBytes_encodeU16 (f : RevFilter) {vs : List Value6} (hvs : Filtered vs) {ws : List Value16}
    (h : decodeU16Groups vs = .ok ws) : vs = filterBytes f (encodeU16 ws) := by
  induction vs using decodeU16Groups.induct generalizing ws with
  | case1 v0 v1 v2 rest u hover =>
    rw [decodeU16Groups, if_pos hover] at h
    cases h
  | case2 v0 v1 v2 rest u hfits ih =>
    have hu : tripletValue v0 v1 v2 < 65536 := Nat.lt_of_not_le hfits
    obtain ⟨hgroup, hrest⟩ := List.forall_mem_append (l₁ := [v0, v1, v2]).mp hvs
    rw [decodeU16Groups_triplet hu] at h
    obtain ⟨more, hmore, rfl⟩ := prepend_eq_ok_iff.mp h
    have hvalue : (BitVec.ofNat 16 (tripletValue v0 v1 v2)).toNat = tripletValue v0 v1 v2 := by
      rw [BitVec.toNat_ofNat, Nat.mod_eq_of_lt hu]
    rw [List.singleton_append, encodeU16, List.flatMap_cons, filterBytes_append,
      filterBytes_tripleSymbols_of_value f hgroup hvalue, ← encodeU16, ← ih hrest hmore]
    rfl
  | case3 v0 v1 => cases h
  | case4 v0 => cases h
  | case5 =>
    cases h
    rfl

/-- Settles O57: the encoder's stream decodes to what was encoded, and nothing else does. -/
theorem decoderAcceptsExactlyTheEncodersImage : Obligations.DecoderAcceptsExactlyTheEncodersImage := by
  unfold Obligations.DecoderAcceptsExactlyTheEncodersImage
  intro f stream
  constructor
  · refine fun bs => ⟨eq_filterBytes_encodeBytes f (filterBytes_filtered f stream), fun h => ?_⟩
    rw [decodeBytes_congr h, decodeBytesOfEncodeBytes]
  · refine fun ws => ⟨eq_filterBytes_encodeU16 f (filterBytes_filtered f stream), fun h => ?_⟩
    rw [decodeU16_congr h, decodeU16OfEncodeU16]

end Sys2Proof.Machine
end

section
/-! Encoder sessions (30_encoding.md R76, R77; 43_control_and_functions.md R123(a), (b)): the session commands walk along the
recursion of the encoder. -/

namespace Sys2Proof.Machine

/-- Two octets of an open byte session that holds none emit their pair. -/
theorem execAll_encByte_pair (b0 b1 : Byte) (is : List Instr) {s : State} (hm : s.encMode = .bytes) (hv : s.encHv = false) :
    execAll (.encByte b0 :: .encByte b1 :: is) s = execAll is
      { s with encHb := b0, encHv := false, encOut := s.encOut ++ tripleSymbols (bytePair b0 b1),
               responses := s.responses ++ [0] ++ [0] } := by
  have hheld := (exec_encByte_of_not_held (b := b0) hm hv).trans (ok_eq_next _)
  have hpair := (exec_encByte_of_held (b := b1) (s := { s.holdByte b0 with responses := s.responses ++ [0] }) hm rfl).trans
    (ok_eq_next _)
  rw [execAll_cons hheld]
  exact execAll_cons hpair

/-- The octets of an open byte session that holds none, and its END. -/
theorem execAll_bytesCmds_encEnd (bs : List Byte) {s : State} (hm : s.encMode = .bytes) (hv : s.encHv = false) :
    ∃ hb, execAll (bytesCmds bs ++ [.encEnd]) s = .next
      { s with encMode := .idle, encHv := false, encHb := hb, encOut := s.encOut ++ encodeBytes bs,
               responses := s.responses ++ List.replicate (bs.length + 1) 0 } := by
  induction bs using encodeBytes.induct generalizing s with
  | case1 b0 b1 rest ih =>
    obtain ⟨hb, hrest⟩ := ih (s := { s with encHb := b0, encHv := false,
                                            encOut := s.encOut ++ tripleSymbols (bytePair b0 b1),
                                            responses := s.responses ++ [0] ++ [0] }) hm rfl
    refine ⟨hb, (execAll_encByte_pair b0 b1 _ hm hv).trans (hrest.trans ?_)⟩
    simp [encodeBytes, List.replicate_succ]
  | case2 b =>
    have hheld := (exec_encByte_of_not_held (b := b) hm hv).trans (ok_eq_next _)
    have hend := (exec_encEnd_of_held (s := { s.holdByte b with responses := s.responses ++ [0] }) hm rfl).trans (ok_eq_next _)
    refine ⟨b, (execAll_cons hheld).trans ((execAll_cons hend).trans (congrArg Host.Outcome.next ?_))⟩
    simp [State.holdByte, State.emitEnc, State.closeEnc, encodeBytes]
  | case3 =>
    have hend := (exec_encEnd_of_not_held (s := s) (by simp [hm]) (by simp [hv])).trans (ok_eq_next _)
    refine ⟨s.encHb, (execAll_cons hend).trans (congrArg Host.Outcome.next ?_)⟩
    simp [State.closeEnc, encodeBytes]

/-- Settles O49: after START a byte session is open and holds no octet. -/
theorem encodeBytesSessionIsEncodeBytes : Obligations.EncodeBytesSessionIsEncodeBytes := by
  unfold Obligations.EncodeBytesSessionIsEncodeBytes
  intro bs s
  have hstart := (exec_encStartBytes s).trans (ok_eq_next _)
  obtain ⟨hb, hrest⟩ := execAll_bytesCmds_encEnd bs
    (s := { s.openEnc .bytes with responses := s.responses ++ [0] }) rfl rfl
  refine ⟨hb, (execAll_cons hstart).trans (hrest.trans ?_)⟩
  simp [State.openEnc, List.replicate_succ]

/-- The values of an open 16-bit session, and its END. -/
theorem execAll_encU16_encEnd (ws : List Value16) {s : State} (hm : s.encMode = .u16) :
    execAll (ws.map Instr.encU16 ++ [.encEnd]) s = .next
      { s with encMode := .idle, encHv := false, encOut := s.encOut ++ encodeU16 ws,
               responses := s.responses ++ List.replicate (ws.length + 1) 0 } := by
  induction ws generalizing s with
  | nil =>
    have hend := (exec_encEnd_of_not_held (s := s) (by simp [hm]) (by simp [hm])).trans (ok_eq_next _)
    refine (execAll_cons hend).trans (congrArg Host.Outcome.next ?_)
    simp [State.closeEnc, encodeU16]
  | cons w ws ih =>
    have hvalue := (exec_encU16_of_u16 (u := w) hm).trans (ok_eq_next _)
    have hrest := ih (s := { s.emitEnc (tripleSymbols w) with responses := s.responses ++ [0] }) hm
    refine (execAll_cons hvalue).trans (hrest.trans ?_)
    simp [State.emitEnc, encodeU16, List.replicate_succ]

/-- Settles O50: after START a 16-bit session is open. -/
theorem encodeU16SessionIsEncodeU16 : Obligations.EncodeU16SessionIsEncodeU16 := by
  unfold Obligations.EncodeU16SessionIsEncodeU16
  intro ws s
  have hstart := (exec_encStartU16 s).trans (ok_eq_next _)
  have hrest := execAll_encU16_encEnd ws (s := { s.openEnc .u16 with responses := s.responses ++ [0] }) rfl
  refine ⟨0, (execAll_cons hstart).trans (hrest.trans ?_)⟩
  simp [State.openEnc, List.replicate_succ]

end Sys2Proof.Machine
end

section
/-! Decoder sessions (30_encoding.md R76; 43_control_and_functions.md R123(c) to (e)). A session of either kind is followed byte by
byte: what it will answer is what its groups answer for the values it has gathered, followed by those the filter leaves of the bytes
still to come. -/

namespace Sys2Proof.Machine

/-! ### The values gathered -/

/-- The values gathered toward the next triplet (10_state.md R26 to R28). -/
def pending (s : State) : List Value6 :=
  if s.decCnt = 0 then [] else if s.decCnt = 1 then [s.decV0] else [s.decV0, s.decV1]

section
variable {s : State}

theorem pending_of_none (hc : s.decCnt = 0) : pending s = [] := by
  rw [pending, if_pos hc]

theorem pending_of_one (hc : s.decCnt = 1) : pending s = [s.decV0] := by
  simp [pending, hc]

theorem pending_of_two (hc : s.decCnt = 2) : pending s = [s.decV0, s.decV1] := by
  simp [pending, hc]

end

/-- Everything an accepted value does to the values gathered: it joins them, or completes a triplet. -/
theorem pending_cases (s : State) :
    (s.decCnt = 0 ∧ pending s = []) ∨ (s.decCnt = 1 ∧ pending s = [s.decV0]) ∨
    (s.decCnt = 2 ∧ pending s = [s.decV0, s.decV1]) := by
  have hcount : s.decCnt = 0 ∨ s.decCnt = 1 ∨ s.decCnt = 2 := by omega
  exact hcount.imp (fun hc => ⟨hc, pending_of_none hc⟩)
    (Or.imp (fun hc => ⟨hc, pending_of_one hc⟩) (fun hc => ⟨hc, pending_of_two hc⟩))

/-! ### Where a session fails -/

/-- Where a decode fails that has gathered `g` and has the bytes `bs` to come: how many responses come before the failing one,
the last response so far among them (R123(d)). -/
def failsAfter (f : RevFilter) (g : List Value6) (bs : List Byte) : Nat :=
  let vs := g ++ filterBytes f bs
  let completed := 3 * (goodTriplets vs).length + 3
  if completed ≤ vs.length then bytesThrough f (completed - g.length) bs else bs.length + 1

/-- Before the first byte the last response is that of START. -/
theorem failsAfter_start (f : RevFilter) (bs : List Byte) : failsAfter f [] bs = responsesBeforeFailure f bs := rfl

section
variable {f : RevFilter} {b : Byte} {x : Value6}

theorem filterBytes_cons_accepted (hr : rev f b = some x) (bs : List Byte) : filterBytes f (b :: bs) = x :: filterBytes f bs :=
  List.filterMap_cons_some hr

theorem filterBytes_cons_rejected (hr : rev f b = none) (bs : List Byte) : filterBytes f (b :: bs) = filterBytes f bs :=
  List.filterMap_cons_none hr

theorem goodTriplets_overflow {v0 v1 v2 : Value6} (hu : 65536 ≤ tripletValue v0 v1 v2) (rest : List Value6) :
    goodTriplets (v0 :: v1 :: v2 :: rest) = [] := by
  rw [goodTriplets, if_pos hu]

theorem goodTriplets_triplet {v0 v1 v2 : Value6} (hu : tripletValue v0 v1 v2 < 65536) (rest : List Value6) :
    goodTriplets (v0 :: v1 :: v2 :: rest) = tripletValue v0 v1 v2 :: goodTriplets rest := by
  rw [goodTriplets, if_neg hu.not_ge]

/-- A rejected byte is passed over with a response of its own. -/
theorem failsAfter_rejected (hr : rev f b = none) {g : List Value6} (hg : g.length < 3) (bs : List Byte) :
    failsAfter f g (b :: bs) = failsAfter f g bs + 1 := by
  simp only [failsAfter, filterBytes_cons_rejected hr]
  split
  · obtain ⟨n, hn⟩ : ∃ n, 3 * (goodTriplets (g ++ filterBytes f bs)).length + 3 - g.length = n + 1 :=
      ⟨_, (Nat.succ_pred (by omega)).symm⟩
    rw [hn, bytesThrough_rejected n bs hr]
  · rfl

/-- An accepted byte that completes no triplet joins the values gathered. -/
theorem failsAfter_gathered (hr : rev f b = some x) {g : List Value6} (hg : g.length < 2) (bs : List Byte) :
    failsAfter f g (b :: bs) = failsAfter f (g ++ [x]) bs + 1 := by
  simp only [failsAfter, filterBytes_cons_accepted hr, List.append_assoc, List.singleton_append]
  split
  · obtain ⟨n, hn⟩ : ∃ n, 3 * (goodTriplets (g ++ x :: filterBytes f bs)).length + 3 - g.length = n + 1 :=
      ⟨_, (Nat.succ_pred (by omega)).symm⟩
    have hn' : 3 * (goodTriplets (g ++ x :: filterBytes f bs)).length + 3 - (g ++ [x]).length = n := by
      rw [List.length_append, List.length_singleton]
      omega
    rw [hn, hn', bytesThrough_accepted n bs hr]
  · rfl

/-- A triplet that does not overflow leaves nothing gathered. -/
theorem failsAfter_triplet (hr : rev f b = some x) {v0 v1 : Value6} (hu : tripletValue v0 v1 x < 65536) (bs : List Byte) :
    failsAfter f [v0, v1] (b :: bs) = failsAfter f [] bs + 1 := by
  simp only [failsAfter, filterBytes_cons_accepted hr, List.cons_append, List.nil_append, goodTriplets_triplet hu,
    List.length_cons, List.length_nil]
  have hgroups : 3 * ((goodTriplets (filterBytes f bs)).length + 1) + 3 ≤ (filterBytes f bs).length + 1 + 1 + 1 ↔
      3 * (goodTriplets (filterBytes f bs)).length + 3 ≤ (filterBytes f bs).length := by omega
  have hcount : 3 * ((goodTriplets (filterBytes f bs)).length + 1) + 3 - (0 + 1 + 1) =
      3 * (goodTriplets (filterBytes f bs)).length + 3 + 1 := by omega
  simp only [hgroups, hcount, bytesThrough_accepted _ bs hr, Nat.sub_zero]
  split
  · rfl
  · rfl

/-- A triplet that overflows fails on this byte. -/
theorem failsAfter_overflow (hr : rev f b = some x) {v0 v1 : Value6} (hu : 65536 ≤ tripletValue v0 v1 x) (bs : List Byte) :
    failsAfter f [v0, v1] (b :: bs) = 1 := by
  simp [failsAfter, filterBytes_cons_accepted hr, goodTriplets_overflow hu, bytesThrough_accepted _ bs hr]

/-- With no byte to come only END can fail. -/
theorem failsAfter_end {g : List Value6} (hg : g.length < 3) : failsAfter f g [] = 1 := by
  have hnone : filterBytes f [] = [] := rfl
  simp only [failsAfter, hnone, List.append_nil, List.length_nil]
  rw [if_neg (by omega)]

end

/-! ### How a session ends -/

/-- The answer `a` leaves the session of `s` closed, with these beats appended and these responses given. -/
def Closes (s : State) (beats : List DecBeat) (responses : List RespWord) (a : Answer) : Prop :=
  ∃ v0 v1, a = .next { s with decMode := .idle, decCnt := 0, decV0 := v0, decV1 := v1, decOut := s.decOut ++ beats,
                              responses := responses }

/-- The answer `a` leaves the session of `s` failed, with this record, these beats appended and these responses given. -/
def Fails (s : State) (k : ErrKind) (value limit : Nat) (beats : List DecBeat) (responses : List RespWord) (a : Answer) : Prop :=
  ∃ v0 v1, a = .next { s with decMode := .error, decCnt := 0, decV0 := v0, decV1 := v1, decEk := k,
                              decEv := BitVec.ofNat 17 value, decEl := BitVec.ofNat 16 limit, decOut := s.decOut ++ beats,
                              responses := responses }

section
variable {s : State} {beats more : List DecBeat} {responses given : List RespWord} {a : Answer}

/-- The beats of a triplet stand in front of those that the rest of the session appends. -/
theorem Closes.of_emitted (h : Closes { s.clearGroup.emitDec beats with responses := given } more responses a) :
    Closes s (beats ++ more) responses a := by
  obtain ⟨v0, v1, ha⟩ := h
  refine ⟨v0, v1, ha.trans ?_⟩
  rw [← List.append_assoc]
  rfl

theorem Fails.of_emitted {k : ErrKind} {value limit : Nat}
    (h : Fails { s.clearGroup.emitDec beats with responses := given } k value limit more responses a) :
    Fails s k value limit (beats ++ more) responses a := by
  obtain ⟨v0, v1, ha⟩ := h
  refine ⟨v0, v1, ha.trans ?_⟩
  rw [← List.append_assoc]
  rfl

end

/-- A kind of decoder session, with what its rules and its reference function have in common. -/
structure DecSession (α : Type) where
  mode : DecMode
  /-- The reference function on the filtered values (R120, R122). -/
  groups : List Value6 → Decoded α
  /-- What it makes of a triplet value. -/
  items : Nat → List α
  beat : α → DecBeat
  tripletBeats : Nat → List DecBeat
  isOpen : mode = .bytes ∨ mode = .u16
  groups_overflow : ∀ {v0 v1 v2 : Value6} (rest), 65536 ≤ tripletValue v0 v1 v2 →
    groups (v0 :: v1 :: v2 :: rest) = .err .overflow (tripletValue v0 v1 v2) 65535
  groups_triplet : ∀ {v0 v1 v2 : Value6} (rest), tripletValue v0 v1 v2 < 65536 →
    groups (v0 :: v1 :: v2 :: rest) = (groups rest).prepend (items (tripletValue v0 v1 v2))
  items_beat : ∀ {u}, u < 65536 → (items u).map beat = tripletBeats u
  completes : ∀ {s : State} {x}, s.decMode = mode → tripletValue s.decV0 s.decV1 x < 65536 →
    completeTriplet x s = (s.clearGroup.emitDec (tripletBeats (tripletValue s.decV0 s.decV1 x))).ok
  ends_ok : ∀ {s : State} {out}, s.decMode = mode → groups (pending s) = .ok out →
    Closes s (out.map beat) (s.responses ++ [0]) (exec .decEnd s)
  ends_err : ∀ {s : State} {k value limit}, s.decMode = mode → groups (pending s) = .err k value limit →
    Fails s k value limit [] (s.responses ++ [errorWord k.code.toNat value limit]) (exec .decEnd s)

/-- The answer `a` ends the session of `s` as the groups `vs` say. The responses `given` and that of the last command come first;
`symbols` bytes are still to come, and a failure comes `before` responses after `given` (R123(c), (d)). -/
def DecSession.Ends {α : Type} (S : DecSession α) (s : State) (given : List RespWord) (vs : List Value6) (before symbols : Nat)
    (a : Answer) : Prop :=
  (∀ out, S.groups vs = .ok out → Closes s (out.map S.beat) (given ++ List.replicate (symbols + 2) 0) a) ∧
  (∀ k value limit, S.groups vs = .err k value limit → Fails s k value limit ((goodTriplets vs).flatMap S.tripletBeats)
    (given ++ List.replicate before 0 ++ [errorWord k.code.toNat value limit] ++ List.replicate (symbols + 1 - before) 5) a)

theorem prepend_eq_err_iff {α : Type} {xs : List α} {d : Decoded α} {k : ErrKind} {value limit : Nat} :
    d.prepend xs = .err k value limit ↔ d = .err k value limit := by
  cases d <;> simp [Decoded.prepend]

/-- One more response 0 is one more in a row of them. -/
theorem append_zero_replicate (given : List RespWord) (n : Nat) :
    given ++ [0] ++ List.replicate n 0 = given ++ List.replicate (n + 1) 0 := by
  rw [List.replicate_succ, List.append_assoc, List.singleton_append]

section
variable {α : Type} {S : DecSession α} {s : State} {given : List RespWord} {vs : List Value6} {before symbols : Nat} {a : Answer}

/-- A command that writes no more than the values gathered, and answers OK, only adds its response. -/
theorem DecSession.Ends.of_gathered {count : Fin 3} {v0 v1 : Value6} {responses : List RespWord}
    (h : S.Ends { s with decCnt := count, decV0 := v0, decV1 := v1, responses := responses } (given ++ [0]) vs before symbols a) :
    S.Ends s given vs (before + 1) (symbols + 1) a := by
  obtain ⟨hok, herr⟩ := h
  refine ⟨fun out hout => ?_, fun k value limit hd => ?_⟩
  · rw [← append_zero_replicate]
    exact hok out hout
  · rw [← append_zero_replicate, Nat.add_sub_add_right]
    exact herr k value limit hd

/-- A triplet puts its items in front of what the rest decodes to, and its beats in front of those of the rest. -/
theorem DecSession.Ends.of_triplet {v0 v1 x : Value6} {responses : List RespWord} (hu : tripletValue v0 v1 x < 65536)
    (h : S.Ends { s.clearGroup.emitDec (S.tripletBeats (tripletValue v0 v1 x)) with responses := responses } (given ++ [0]) vs
      before symbols a) :
    S.Ends s given (v0 :: v1 :: x :: vs) (before + 1) (symbols + 1) a := by
  obtain ⟨hok, herr⟩ := h
  refine ⟨fun out hout => ?_, fun k value limit hd => ?_⟩
  · rw [S.groups_triplet vs hu] at hout
    obtain ⟨rest, hrest, rfl⟩ := prepend_eq_ok_iff.mp hout
    rw [List.map_append, S.items_beat hu, ← append_zero_replicate]
    exact (hok rest hrest).of_emitted
  · rw [S.groups_triplet vs hu] at hd
    rw [goodTriplets_triplet hu, List.flatMap_cons, ← append_zero_replicate, Nat.add_sub_add_right]
    exact (herr k value limit (prepend_eq_err_iff.mp hd)).of_emitted

end

end Sys2Proof.Machine
end

section
/-! Decoder sessions, run (43_control_and_functions.md R123(c) to (e)): each byte passes the session on to the bytes after it, by one
of the lemmas on how a session ends, and END closes it or fails it as the reference function does on the values left over. -/

namespace Sys2Proof.Machine

/-! ### Byte by byte -/

/-- In ERROR every byte and END are rejected (R117). -/
theorem execAll_of_failed (bs : List Byte) {s : State} (hm : s.decMode = .error) :
    execAll (symsCmds bs ++ [.decEnd]) s = .next { s with responses := s.responses ++ List.replicate (bs.length + 1) 5 } := by
  induction bs generalizing s with
  | nil => exact execAll_cons ((exec_decEnd_of_not_open (.inr hm)).trans (illegalSequence_eq_next s))
  | cons b bs ih =>
    have hrejected := (exec_decSym_of_not_open (b := b) (by simp [hm])).trans (illegalSequence_eq_next s)
    have hrest := ih (s := { s with responses := s.responses ++ [5] }) hm
    refine (execAll_cons hrejected).trans (hrest.trans ?_)
    rw [List.append_assoc, List.singleton_append, ← List.replicate_succ]
    rfl

theorem pending_length_lt (s : State) : (pending s).length < 3 := by
  rcases pending_cases s with ⟨-, hp⟩ | ⟨-, hp⟩ | ⟨-, hp⟩ <;> simp [hp]

theorem pending_length_lt_two {s : State} (hc : s.decCnt ≠ 2) : (pending s).length < 2 := by
  rcases pending_cases s with ⟨-, hp⟩ | ⟨-, hp⟩ | ⟨hc', -⟩
  · simp [hp]
  · simp [hp]
  · exact absurd hc' hc

section
variable {b : Byte} {x : Value6} {s : State}

/-- The first and the second accepted value join those gathered, and are answered OK (R107). -/
theorem exec_decSym_gathers (hm : s.decMode = .bytes ∨ s.decMode = .u16) (hr : rev s.cfg.revFilter b = some x)
    (hc : s.decCnt = 0 ∨ s.decCnt = 1) : ∃ (count : Fin 3) (v0 v1 : Value6) (t : State),
      t = { s with decCnt := count, decV0 := v0, decV1 := v1, responses := s.responses ++ [0] } ∧
      exec (.decSym b) s = .next t ∧ pending t = pending s ++ [x] := by
  rw [exec_decSym_of_accepted hm hr]
  rcases hc with hc | hc
  · refine ⟨1, x, s.decV1, _, rfl, (acceptValue_of_first hc).trans (ok_eq_next _), ?_⟩
    rw [pending_of_none hc]
    rfl
  · refine ⟨2, s.decV0, x, _, rfl, (acceptValue_of_second hc).trans (ok_eq_next _), ?_⟩
    rw [pending_of_one hc]
    rfl

end

section
variable {α : Type} (S : DecSession α) {s : State} {given : List RespWord}

/-- A triplet that overflows ends the session, whatever follows. -/
theorem DecSession.ends_of_overflow {v0 v1 x : Value6} (hu : 65536 ≤ tripletValue v0 v1 x) (vs : List Value6) (bs : List Byte)
    {responses : List RespWord} (hgiven : responses = given ++ [0]) :
    S.Ends s given (v0 :: v1 :: x :: vs) 1 (bs.length + 1) (execAll (symsCmds bs ++ [.decEnd])
      { s.enterError .overflow (tripletValue v0 v1 x) 65535 with
        responses := responses ++ [errorWord 1 (tripletValue v0 v1 x) 65535] }) := by
  rw [execAll_of_failed bs rfl, DecSession.Ends, S.groups_overflow vs hu, goodTriplets_overflow hu]
  refine ⟨fun out hout => (by cases hout), fun k value limit hd => ?_⟩
  cases hd
  refine ⟨s.decV0, s.decV1, ?_⟩
  simp [hgiven, State.enterError, ErrKind.code]

/-- END ends the session as the values left over say. -/
theorem DecSession.ends_of_decEnd (hm : s.decMode = S.mode) (hgiven : s.responses = given ++ [0]) :
    S.Ends s given (pending s) 1 0 (exec .decEnd s) := by
  have hleft : goodTriplets (pending s) = [] := by
    rcases pending_cases s with ⟨-, hp⟩ | ⟨-, hp⟩ | ⟨-, hp⟩ <;> rw [hp] <;> rfl
  constructor
  · intro out hout
    have hcloses := S.ends_ok hm hout
    rwa [hgiven, List.append_assoc] at hcloses
  · intro k value limit hd
    have hfails := S.ends_err hm hd
    rw [hleft]
    rwa [hgiven, ← List.append_nil (given ++ [0] ++ _)] at hfails

/-- The bytes still to come and END, from an open session that has gathered some values and given its last response. -/
theorem DecSession.ends (bs : List Byte) (hm : s.decMode = S.mode) (hgiven : s.responses = given ++ [0]) :
    S.Ends s given (pending s ++ filterBytes s.cfg.revFilter bs) (failsAfter s.cfg.revFilter (pending s) bs) bs.length
      (execAll (symsCmds bs ++ [.decEnd]) s) := by
  induction bs generalizing s given with
  | nil =>
    have hend : execAll (symsCmds [] ++ [.decEnd]) s = exec .decEnd s := by
      obtain ⟨t, ht⟩ := exec_answers .decEnd s
      exact (execAll_cons ht).trans ht.symm
    have hnone : filterBytes s.cfg.revFilter [] = [] := rfl
    rw [hend, hnone, List.append_nil, failsAfter_end (pending_length_lt s)]
    exact S.ends_of_decEnd hm hgiven
  | cons b bs ih =>
    have hopen : s.decMode = .bytes ∨ s.decMode = .u16 := hm ▸ S.isOpen
    have hgiven' : s.responses ++ [0] = given ++ [0] ++ [0] := by rw [hgiven]
    cases hr : rev s.cfg.revFilter b with
    | none =>
      have hpassed := (exec_decSym_of_rejected hopen hr).trans (ok_eq_next s)
      have hrest := ih (s := { s with responses := s.responses ++ [0] }) hm hgiven'
      rw [filterBytes_cons_rejected hr, failsAfter_rejected hr (pending_length_lt s)]
      exact (execAll_cons hpassed).symm ▸ hrest.of_gathered
    | some x =>
      rw [filterBytes_cons_accepted hr]
      by_cases hc : s.decCnt = 2
      · have haccepted := (exec_decSym_of_accepted hopen hr).trans (acceptValue_of_third hc)
        rw [pending_of_two hc]
        rcases Nat.lt_or_ge (tripletValue s.decV0 s.decV1 x) 65536 with hu | hu
        · have hemitted := haccepted.trans ((S.completes hm hu).trans (ok_eq_next _))
          have hrest := ih (s := { s.clearGroup.emitDec (S.tripletBeats (tripletValue s.decV0 s.decV1 x)) with
            responses := s.responses ++ [0] }) hm hgiven'
          rw [failsAfter_triplet hr hu]
          exact (execAll_cons hemitted).symm ▸ hrest.of_triplet hu
        · have hfailed := haccepted.trans ((completeTriplet_of_overflow hu).trans
            (raiseError_eq_next s .overflow (tripletValue_lt _ _ _) (by decide)))
          rw [failsAfter_overflow hr hu]
          exact (execAll_cons hfailed).symm ▸ S.ends_of_overflow hu _ bs hgiven
      · obtain ⟨count, v0, v1, t, rfl, hgathered, hpending⟩ := exec_decSym_gathers hopen hr (by omega)
        have hrest := ih (s := { s with decCnt := count, decV0 := v0, decV1 := v1, responses := s.responses ++ [0] }) hm hgiven'
        rw [hpending, List.append_assoc, List.singleton_append] at hrest
        rw [failsAfter_gathered hr (pending_length_lt_two hc)]
        exact (execAll_cons hgathered).symm ▸ hrest.of_gathered

/-- A whole session, from the state `t` that its START opens (R123). -/
theorem DecSession.session_ends {start : Instr} {t : State} (bs : List Byte) (hstart : exec start s = .next t)
    (hm : t.decMode = S.mode) (hc : t.decCnt = 0) (hgiven : t.responses = s.responses ++ [0]) :
    S.Ends t s.responses (filterBytes s.cfg.revFilter bs) (responsesBeforeFailure s.cfg.revFilter bs) bs.length
      (execAll ([start] ++ symsCmds bs ++ [.decEnd]) s) := by
  obtain ⟨-, -, -, -, hcfg, -⟩ := exec_sameHostSide hstart
  have hends := S.ends bs hm hgiven
  rw [pending_of_none hc, List.nil_append, failsAfter_start, hcfg] at hends
  exact (execAll_cons hstart).symm ▸ hends

end

/-! ### The two kinds -/

theorem decodeByteGroups_underflow {v0 v1 : Value6} (hu : doubleValue v0 v1 < 41) :
    decodeByteGroups [v0, v1] = .err .underflow (doubleValue v0 v1) 41 := by
  rw [decodeByteGroups, if_pos hu]

theorem decodeByteGroups_overflow {v0 v1 : Value6} (hu : 256 ≤ doubleValue v0 v1) :
    decodeByteGroups [v0, v1] = .err .overflow (doubleValue v0 v1) 255 := by
  have hlarge : ¬ doubleValue v0 v1 < 41 := by omega
  rw [decodeByteGroups, if_neg hlarge, if_pos hu]

section
variable {s : State}

/-- END of a byte session emits the values left over where the reference function answers with their octet (R108, R120). -/
theorem decEnd_closes_bytes {out : List Byte} (hm : s.decMode = .bytes) (h : decodeByteGroups (pending s) = .ok out) :
    Closes s (out.map (fun b => BitVec.ofNat 17 b.toNat)) (s.responses ++ [0]) (exec .decEnd s) := by
  rw [exec_decEnd_of_bytes hm]
  refine ⟨s.decV0, s.decV1, ?_⟩
  rcases endBytes_cases s with ⟨hc, hend⟩ | ⟨hc, hend⟩ | ⟨hc, hu, -⟩ | ⟨hc, hu, -⟩ | ⟨hc, hlow, hhigh, hend⟩
  · rw [pending_of_none hc] at h
    cases h
    rw [hend, ok_eq_next, List.map_nil, List.append_nil]
    rfl
  · rw [pending_of_one hc] at h
    cases h
    have hvalue : (s.decV0.setWidth 8).toNat = s.decV0.toNat := BitVec.toNat_setWidth_of_le (by decide)
    rw [hend, ok_eq_next, narrowBeat_setWidth, List.map_singleton, hvalue]
    rfl
  · rw [pending_of_two hc, decodeByteGroups_underflow hu] at h
    cases h
  · rw [pending_of_two hc, decodeByteGroups_overflow hu] at h
    cases h
  · rw [pending_of_two hc, decodeByteGroups_double hlow hhigh] at h
    cases h
    have hvalue : (BitVec.ofNat 8 (doubleValue s.decV0 s.decV1)).toNat = doubleValue s.decV0 s.decV1 := by
      rw [BitVec.toNat_ofNat, Nat.mod_eq_of_lt hhigh]
    rw [hend, ok_eq_next, narrowBeat_ofNat hhigh, List.map_singleton, hvalue]
    rfl

/-- END of a byte session fails where the reference function does, with its record (R103, R108). -/
theorem decEnd_fails_bytes {k : ErrKind} {value limit : Nat} (hm : s.decMode = .bytes)
    (h : decodeByteGroups (pending s) = .err k value limit) :
    Fails s k value limit [] (s.responses ++ [errorWord k.code.toNat value limit]) (exec .decEnd s) := by
  have hfits : doubleValue s.decV0 s.decV1 < 2 ^ 17 := (doubleValue_lt _ _).trans (by decide)
  rw [exec_decEnd_of_bytes hm]
  refine ⟨s.decV0, s.decV1, ?_⟩
  rcases endBytes_cases s with ⟨hc, -⟩ | ⟨hc, -⟩ | ⟨hc, hu, hend⟩ | ⟨hc, hu, hend⟩ | ⟨hc, hlow, hhigh, -⟩
  · rw [pending_of_none hc] at h
    cases h
  · rw [pending_of_one hc] at h
    cases h
  · rw [pending_of_two hc, decodeByteGroups_underflow hu] at h
    cases h
    rw [hend, raiseError_eq_next s .underflow hfits (by decide), List.append_nil]
  · rw [pending_of_two hc, decodeByteGroups_overflow hu] at h
    cases h
    rw [hend, raiseError_eq_next s .overflow hfits (by decide), List.append_nil]
  · rw [pending_of_two hc, decodeByteGroups_double hlow hhigh] at h
    cases h

/-- A 16-bit session has no answer for values left over, only CONTRACT with their count (R122). -/
theorem decodeU16Groups_pending (s : State) : decodeU16Groups (pending s) =
    if s.decCnt = 0 then .ok [] else .err .contract s.decCnt.val 0 := by
  rcases pending_cases s with ⟨hc, hp⟩ | ⟨hc, hp⟩ | ⟨hc, hp⟩ <;> rw [hp, hc] <;> rfl

/-- END of a 16-bit session closes it where the reference function answers, with nothing more (R109, R122). -/
theorem decEnd_closes_u16 {out : List Value16} (hm : s.decMode = .u16) (h : decodeU16Groups (pending s) = .ok out) :
    Closes s (out.map (fun w => BitVec.ofNat 17 (65536 + w.toNat))) (s.responses ++ [0]) (exec .decEnd s) := by
  rw [exec_decEnd_of_u16 hm]
  rw [decodeU16Groups_pending] at h
  refine ⟨s.decV0, s.decV1, ?_⟩
  rcases endU16_cases s with ⟨hc, hend⟩ | ⟨hc, -⟩
  · rw [if_pos hc] at h
    cases h
    rw [hend, ok_eq_next, List.map_nil, List.append_nil]
    rfl
  · rw [if_neg hc] at h
    cases h

/-- END of a 16-bit session fails where the reference function does, with its record (R109). -/
theorem decEnd_fails_u16 {k : ErrKind} {value limit : Nat} (hm : s.decMode = .u16)
    (h : decodeU16Groups (pending s) = .err k value limit) :
    Fails s k value limit [] (s.responses ++ [errorWord k.code.toNat value limit]) (exec .decEnd s) := by
  rw [exec_decEnd_of_u16 hm]
  rw [decodeU16Groups_pending] at h
  refine ⟨s.decV0, s.decV1, ?_⟩
  rcases endU16_cases s with ⟨hc, -⟩ | ⟨hc, hend⟩
  · rw [if_pos hc] at h
    cases h
  · rw [if_neg hc] at h
    cases h
    rw [hend, raiseError_eq_next s .contract (by omega) (by decide), List.append_nil]

end

/-- A byte session (R102, R108, R120). -/
def bytesSession : DecSession Byte where
  mode := .bytes
  groups := decodeByteGroups
  items u := [BitVec.ofNat 8 (u / 256), BitVec.ofNat 8 (u % 256)]
  beat b := BitVec.ofNat 17 b.toNat
  tripletBeats u := [BitVec.ofNat 17 (u / 256), BitVec.ofNat 17 (u % 256)]
  isOpen := .inl rfl
  groups_overflow _ hu := by rw [decodeByteGroups, if_pos hu]
  groups_triplet rest hu := decodeByteGroups_triplet hu rest
  items_beat {u} hu := by
    have hhigh : (BitVec.ofNat 8 (u / 256)).toNat = u / 256 := by rw [BitVec.toNat_ofNat, Nat.mod_eq_of_lt (by omega)]
    have hlow : (BitVec.ofNat 8 (u % 256)).toNat = u % 256 := by rw [BitVec.toNat_ofNat, Nat.mod_eq_of_lt (by omega)]
    rw [List.map_cons, List.map_singleton, hhigh, hlow]
  completes hm hu := by rw [completeTriplet_of_bytes hu hm, byteBeats_eq hu]
  ends_ok := decEnd_closes_bytes
  ends_err := decEnd_fails_bytes

/-- A 16-bit session (R102, R109, R122). -/
def u16Session : DecSession Value16 where
  mode := .u16
  groups := decodeU16Groups
  items u := [BitVec.ofNat 16 u]
  beat w := BitVec.ofNat 17 (65536 + w.toNat)
  tripletBeats u := [BitVec.ofNat 17 (65536 + u)]
  isOpen := .inr rfl
  groups_overflow _ hu := by rw [decodeU16Groups, if_pos hu]
  groups_triplet rest hu := decodeU16Groups_triplet hu rest
  items_beat {u} hu := by
    have hvalue : (BitVec.ofNat 16 u).toNat = u := by rw [BitVec.toNat_ofNat, Nat.mod_eq_of_lt hu]
    rw [List.map_singleton, hvalue]
  completes hm hu := by rw [completeTriplet_of_u16 hu hm, valueBeats_eq hu]
  ends_ok := decEnd_closes_u16
  ends_err := decEnd_fails_u16

/-- Settles O51: the session of `bytesSession`, from the state that DEC_START_BYTES opens. -/
theorem decodeBytesSessionIsDecodeBytes : Obligations.DecodeBytesSessionIsDecodeBytes := by
  unfold Obligations.DecodeBytesSessionIsDecodeBytes
  intro bs s
  have hstart := (exec_decStartBytes s).trans (ok_eq_next _)
  obtain ⟨hok, herr⟩ := bytesSession.session_ends bs hstart rfl rfl rfl
  cases hd : decodeBytes s.cfg.revFilter bs with
  | ok out => exact hok out hd
  | err k value limit => exact herr k value limit hd

/-- Settles O52: the session of `u16Session`, from the state that DEC_START_U16 opens. -/
theorem decodeU16SessionIsDecodeU16 : Obligations.DecodeU16SessionIsDecodeU16 := by
  unfold Obligations.DecodeU16SessionIsDecodeU16
  intro bs s
  have hstart := (exec_decStartU16 s).trans (ok_eq_next _)
  obtain ⟨hok, herr⟩ := u16Session.session_ends bs hstart rfl rfl rfl
  cases hd : decodeU16 s.cfg.revFilter bs with
  | ok out => exact hok out hd
  | err k value limit =>
    simp only [List.map_eq_flatMap]
    exact herr k value limit hd

end Sys2Proof.Machine
end
